-- ==== Sys2Proof/Word.lean ====
section
/-! DEFINITION. The word types of QAE (00_scope.md R12 to R15). A byte string is a `List Byte`, first byte first. -/

namespace Sys2Proof

/-- A byte: an 8-bit unsigned value (R12). -/
abbrev Byte := BitVec 8

/-- A 32-bit word of the bus, of a word register or of the key schedule. -/
abbrev Word := BitVec 32

/-- A 16-byte block. Byte 0 is the most significant byte, so that the number is `int_be` of the block (R15). -/
abbrev Block := BitVec 128

/-- A key schedule: 176 bytes, byte 0 most significant (R10, 10_state.md R38). -/
abbrev Schedule := BitVec 1408

/-- A 12-byte IV, byte 0 most significant (R10). -/
abbrev Iv := BitVec 96

/-- An 18-bit byte address of the bus (20_memory.md R60). -/
abbrev Addr := BitVec 18

end Sys2Proof
end

