-- ==== Sys2Proof/Config.lean ====
section
/-! DEFINITION. What an implementation of QAE fixes, and the free values: what the spec says may be anything. -/

namespace Sys2Proof

/-- What an implementation fixes: the one OPEN parameter of the spec (92_eei_decisions.md D6, 00_scope.md R11).
DESIGN CHOICE (log 4): the parameter is carried by the state, so that a statement about every state holds for every
value of it. -/
structure Config where
  /-- `BUF_MAX`, the capacity in bytes of each of the three buffers. -/
  bufMax : Nat
deriving DecidableEq, Repr

/-- The spec's default: `BUF_MAX` = 65536 (D6). -/
def Config.standard : Config := { bufMax := 65536 }

/-- FREE VALUE (log 5). The byte that a cell of the buffers holds after reset until it is written: `resets` counts the
resets so far, `addr` is the cell's bus address (93_implementation_defined.md U4, U5). -/
opaque Config.powerUpByte (resets addr : Nat) : Byte

/-- FREE VALUE (log 6). The byte at row `a`, column `b` of GFT after reset until the table is built
(93_implementation_defined.md U3). -/
opaque Config.powerUpProduct (resets : Nat) (a b : Byte) : Byte

/-- FREE VALUE (log 3). The 12 bytes the random source delivers at its `n`-th sample when the state supplies none
(10_state.md R44, 93_implementation_defined.md U6). -/
opaque Config.rngDraw (n : Nat) : Iv

end Sys2Proof
end

