-- ==== Sys2Proof/Syntax.lean ====
section
/-! DEFINITION. The commands of QAE: one constructor per row of spec/opcode_table.json (30_encoding.md R94). -/

namespace Sys2Proof

/-- A command. The only operands carried in a command word are the two bytes of format G (30_encoding.md R93); every
other operand is a register or buffer named by the command's rule. -/
inductive Instr where
  /-- GFINIT (40_gf256.md R114): build the multiplication table if it is not built. -/
  | gfinit
  /-- GFMUL a, b (40_gf256.md R115): the direct multiply. -/
  | gfmul (a b : Byte)
  /-- GFMULF a, b (40_gf256.md R117): the fast-path multiply. -/
  | gfmulf (a b : Byte)
  /-- KLOAD (41_block_cipher.md R142): take the staged key. -/
  | kload
  /-- KEXP (41_block_cipher.md R144): expand the key now. -/
  | kexp
  /-- ENCBLK (41_block_cipher.md R145): encrypt one block. -/
  | encblk
  /-- HDERIVE (42_ctr_ghash.md R172): derive H now. -/
  | hderive
  /-- CTRINC (42_ctr_ghash.md R162): increment the CTR register. -/
  | ctrinc
  /-- GHMUL (42_ctr_ghash.md R167): one GHASH multiplication on registers. -/
  | ghmul
  /-- AEENC (43_aead.md R186): authenticated encryption. -/
  | aeenc
  /-- AEDEC (43_aead.md R190): verified decryption. -/
  | aedec
  /-- CLR (43_aead.md R195): end the engine instance. -/
  | clr
deriving DecidableEq, Repr

end Sys2Proof
end

