-- ==== Sys2Proof/WellFormed.lean ====
section
/-! DEFINITION. Which commands and which configurations are well formed. -/

namespace Sys2Proof

/-- Every command is well formed: an operand of format G is "an unsigned byte used as it stands" (30_encoding.md R93),
and the type of the operands already says so; the ten commands of format Z have no operand. -/
def Instr.wellFormed : Instr → Bool
  | .gfinit => true
  | .gfmul _ _ => true
  | .gfmulf _ _ => true
  | .kload => true
  | .kexp => true
  | .encblk => true
  | .hderive => true
  | .ctrinc => true
  | .ghmul => true
  | .aeenc => true
  | .aedec => true
  | .clr => true

/-- The range of the open parameter: 12 ≤ BUF_MAX ≤ 65536, a multiple of 4 (92_eei_decisions.md D6). -/
def Config.wellFormed (c : Config) : Bool :=
  decide (12 ≤ c.bufMax) && decide (c.bufMax ≤ 65536) && decide (c.bufMax % 4 = 0)

end Sys2Proof
end

