-- ==== Sys2Proof/Decode.lean ====
section
/-! DEFINITION. Command words (30_encoding.md): the decoder, total on 32-bit words and rejecting by name, and the
encoder. Bit 0 is the least significant bit of the word as written on the bus (R90). -/

namespace Sys2Proof

/-- Why a word is no command (30_encoding.md R95). Both reasons raise CONTRACT. -/
inductive Illegal where
  /-- The opcode byte is one of the 244 unassigned values. -/
  | unassignedOpcode
  /-- The opcode is assigned but the format's `zero` field is not zero. -/
  | reservedBits
deriving DecidableEq, Repr

/-- The field op, bits 7:0 (R91). -/
def opField (w : Word) : Byte := w.extractLsb' 0 8

/-- The field a of format G, bits 15:8 (R91). -/
def aField (w : Word) : Byte := w.extractLsb' 8 8

/-- The field b of format G, bits 23:16 (R91). -/
def bField (w : Word) : Byte := w.extractLsb' 16 8

/-- The `zero` field of format Z, bits 31:8 (R91). -/
def zeroFieldZ (w : Word) : BitVec 24 := w.extractLsb' 8 24

/-- The `zero` field of format G, bits 31:24 (R91). -/
def zeroFieldG (w : Word) : Byte := w.extractLsb' 24 8

/-- A word of format Z is the command `i` when its `zero` field is zero (R94). -/
def formatZ (w : Word) (i : Instr) : Except Illegal Instr :=
  if zeroFieldZ w = 0#24 then .ok i else .error .reservedBits

/-- A word of format G is the command `i a b` when its `zero` field is zero (R93, R94). -/
def formatG (w : Word) (i : Byte → Byte → Instr) : Except Illegal Instr :=
  if zeroFieldG w = 0#8 then .ok (i (aField w) (bField w)) else .error .reservedBits

/-- `Decode(w)` of R94: the format is chosen by the opcode, and every word the rule does not decode is illegal (R95). -/
def decode (w : Word) : Except Illegal Instr :=
  match (opField w).toNat with
  | 0x01 => formatZ w .gfinit
  | 0x02 => formatG w .gfmul
  | 0x03 => formatG w .gfmulf
  | 0x10 => formatZ w .kload
  | 0x11 => formatZ w .kexp
  | 0x12 => formatZ w .encblk
  | 0x20 => formatZ w .hderive
  | 0x21 => formatZ w .ctrinc
  | 0x22 => formatZ w .ghmul
  | 0x30 => formatZ w .aeenc
  | 0x31 => formatZ w .aedec
  | 0x3F => formatZ w .clr
  | _ => .error .unassignedOpcode

/-- A word of format Z: bits 31:8 zero, the opcode in bits 7:0 (R91). -/
def wordZ (op : Byte) : Word := 0#24 ++ op

/-- A word of format G: bits 31:24 zero, b, a, the opcode (R91). -/
def wordG (op a b : Byte) : Word := 0#8 ++ b ++ a ++ op

/-- The word of a command, from the encoding tables of R91 and R94. -/
def encode : Instr → Word
  | .gfinit => wordZ 0x01#8
  | .gfmul a b => wordG 0x02#8 a b
  | .gfmulf a b => wordG 0x03#8 a b
  | .kload => wordZ 0x10#8
  | .kexp => wordZ 0x11#8
  | .encblk => wordZ 0x12#8
  | .hderive => wordZ 0x20#8
  | .ctrinc => wordZ 0x21#8
  | .ghmul => wordZ 0x22#8
  | .aeenc => wordZ 0x30#8
  | .aedec => wordZ 0x31#8
  | .clr => wordZ 0x3F#8

/-- The command word made of the `nbits` bits that the opcode table numbers, every bit above them zero. A command is
one 32-bit word with bit 0 least significant (R90), which is the table's numbering, so no byte is moved. -/
def tableWord (nbits w : Nat) : Word := BitVec.ofNat 32 (w % 2 ^ nbits)

/-- What the decoder reads from an instruction given by its bits in the opcode table's numbering. -/
def decodeTableWord (nbits w : Nat) : Option Instr :=
  match decode (tableWord nbits w) with
  | .ok i => some i
  | .error _ => none

end Sys2Proof
end

