-- ==== Sys2Proof/Machine/State.lean ====
section
/-! DEFINITION. The state of QAE as plain data (10_state.md R20), what the port and the other agents exchange with it,
and the state after reset (10_state.md R46). -/

namespace Sys2Proof.Machine

/-- Nothing in QAE stops the machine: every command is total, every bus access is answered and every failure class of
60_exceptions.md has an effect the spec describes (log 7). So there is no constructor: nothing raises a fault. -/
inductive Fault where
deriving DecidableEq, Repr

/-- Why a step is refused. -/
inductive Refusal where
  /-- Raised by an arm of `exec` whose instruction has no meaning yet; no arm raises it. Safe: the machine stops where
  the hardware goes on. -/
  | notModelled (mnemonic : String)
deriving DecidableEq, Repr

/-- The width of a bus access: 1 or 4 bytes; other sizes do not exist on the port (20_memory.md R60, R64). -/
inductive Size where
  | one
  | four
deriving DecidableEq, Repr

/-- A bus transaction (20_memory.md R60). -/
inductive Transaction where
  | read (addr : Addr) (size : Size)
  | write (addr : Addr) (size : Size) (data : Word)
deriving DecidableEq, Repr

/-- The port's response to a transaction (20_memory.md R60). -/
inductive Response where
  /-- `(ok, data)`, the response to a read. -/
  | readOk (data : Word)
  /-- `ok`, the response to a write. -/
  | writeOk
  /-- `error`: the access is misaligned, of the wrong size or unmapped (R64, R65). -/
  | error
deriving DecidableEq, Repr

/-- What the outside world does to the block: a bus transaction, or the reset input asserted
(70_reset_and_hazards.md R240). -/
inductive Input where
  | bus (t : Transaction)
  | reset
deriving DecidableEq, Repr

/-- The result codes that occur (60_exceptions.md R210): "Codes 4..15 never occur." -/
inductive ResultCode where
  | ok
  | malformed
  | authFail
  | contract
deriving DecidableEq, Repr

/-- The contents of GFT (10_state.md R40): what it is after the given number of resets until it is built, or the
complete table. The rules write all 65,536 entries in one atomic command and only once, so it never holds anything
else (log 6). -/
inductive GfTable where
  | unspecified (resets : Nat)
  | complete
deriving DecidableEq, Repr

/-- Memory: the bytes written so far to the three buffers, by bus address, addresses strictly rising. An address that
is not listed has not been written since reset (log 5). -/
abbrev Memory := List Host.Cell

/-- The state of QAE. The fields down to `mem` are the list of 10_state.md R20; CMD stores nothing (R35). -/
structure State where
  /-- STATUS bit 0: GFT holds the complete table (R36). -/
  tblReady : Bool
  /-- STATUS bit 1: KEY holds a loaded key (R36). -/
  keyValid : Bool
  /-- STATUS bit 2: RK is the schedule of KEY (R36). -/
  rkValid : Bool
  /-- STATUS bit 3: H is the hash subkey (R36). -/
  hValid : Bool
  /-- STATUS bit 4: a contract violation has occurred (R36). -/
  fatal : Bool
  /-- STATUS bits 11:8: the outcome of the last command (R36). -/
  result : ResultCode
  /-- The length of the AAD in bytes (R32). -/
  aadlen : Word
  /-- The length of the source in bytes (R33). -/
  srclen : Word
  /-- The number of valid bytes in DSTBUF (R34). -/
  dstlen : Word
  /-- The last GF(2^8) product (R31). -/
  gfp : Byte
  /-- The staged key (R23). -/
  keyin : Block
  /-- The engine's key, not mapped on the bus (R24). -/
  key : Block
  /-- The block operand of ENCBLK and GHMUL (R25). -/
  blkin : Block
  /-- The block result of ENCBLK and GHMUL (R26). -/
  blkout : Block
  /-- The second operand of GHMUL (R27). -/
  ghop : Block
  /-- The counter block of CTRINC (R28). -/
  ctr : Block
  /-- The tag supplied for AEDEC (R29). -/
  tagin : Block
  /-- The tag produced by AEENC (R30). -/
  tagout : Block
  /-- The round-key schedule, not mapped on the bus (R38). -/
  rk : Schedule
  /-- The hash subkey, not mapped on the bus (R39). -/
  h : Block
  /-- The multiplication table, not mapped on the bus (R40). -/
  gft : GfTable
  /-- AADBUF, SRCBUF and DSTBUF (R41 to R43). -/
  mem : Memory
  /-- The open parameter BUF_MAX (92_eei_decisions.md D6); no step changes it (log 4). -/
  cfg : Config
  /-- The model's own: what the outside world is still to do, next first (log 1). -/
  inputs : List Input
  /-- The model's own: the port's response to the last transaction (log 9). -/
  answer : Option Response
  /-- The model's own: the values the random source is to deliver, next first (log 3). -/
  rng : List Iv
  /-- The model's own: how many samples of the random source have been taken (log 3). -/
  draws : Nat
  /-- The model's own: how many times the reset input has been applied (log 5). -/
  resets : Nat
deriving DecidableEq, Repr

/-- The machine right after reset (10_state.md R46). The values of the model's own fields are DESIGN CHOICEs
(logs 1, 3, 4, 5, 9). -/
def State.reset : State where
  tblReady := false
  keyValid := false
  rkValid := false
  hValid := false
  fatal := false
  result := .ok
  aadlen := 0#32
  srclen := 0#32
  dstlen := 0#32
  gfp := 0#8
  keyin := 0#128
  key := 0#128
  blkin := 0#128
  blkout := 0#128
  ghop := 0#128
  ctr := 0#128
  tagin := 0#128
  tagout := 0#128
  rk := 0#1408
  h := 0#128
  gft := .unspecified 0
  mem := []
  cfg := Config.standard
  inputs := []
  answer := none
  rng := []
  draws := 0
  resets := 0

end Sys2Proof.Machine
end

