-- ==== Sys2Proof/Machine/Flags.lean ====
section
/-! DEFINITION. The STATUS word (10_state.md R36): QAE has no arithmetic flag (R37), only the five bits and the result
code of STATUS. -/

namespace Sys2Proof.Machine

/-- The four bits of a result code (60_exceptions.md R210). -/
def ResultCode.bits : ResultCode → BitVec 4
  | .ok => 0#4
  | .malformed => 1#4
  | .authFail => 2#4
  | .contract => 3#4

/-- STATUS as the host reads it: bits 31:12 and 7:5 zero, RESULT in 11:8, then FATAL, H_VALID, RK_VALID, KEY_VALID and
TBL_READY in bits 4 to 0 (R36). -/
def statusWord (s : State) : Word :=
  0#20 ++ s.result.bits ++ 0#3 ++ BitVec.ofBool s.fatal ++ BitVec.ofBool s.hValid ++
    BitVec.ofBool s.rkValid ++ BitVec.ofBool s.keyValid ++ BitVec.ofBool s.tblReady

end Sys2Proof.Machine
end

