-- ==== Sys2Proof/Machine/Bytes.lean ====
section
/-! DEFINITION. Byte strings, the bytes of a block and of a word, and the lanes of the bus (00_scope.md R12 to R15,
20_memory.md R62, R63). -/

namespace Sys2Proof.Machine

/-- Byte `k` of a block; byte 0 is the most significant (R15). Meant for k in 0..15. -/
def blockByte (x : Block) (k : Nat) : Byte := x.extractLsb' (8 * (15 - k)) 8

/-- The block whose byte `k` is `f k`. -/
def blockOfFn (f : Nat → Byte) : Block :=
  f 0 ++ f 1 ++ f 2 ++ f 3 ++ f 4 ++ f 5 ++ f 6 ++ f 7 ++
    f 8 ++ f 9 ++ f 10 ++ f 11 ++ f 12 ++ f 13 ++ f 14 ++ f 15

/-- The bytes of a block, first byte first. -/
def blockBytes (x : Block) : List Byte := (List.range 16).map (blockByte x)

/-- The block made of the first 16 bytes of a byte string, with zero bytes where the string is shorter. -/
def blockOfBytes (bs : List Byte) : Block := blockOfFn fun k => bs.getD k 0#8

/-- The block with byte `k` replaced. -/
def setBlockByte (x : Block) (k : Nat) (b : Byte) : Block :=
  blockOfFn fun n => if n = k then b else blockByte x n

/-- Bit `i` of a block in the numbering of GHASH: bit 0 is the most significant bit of the first byte (R14). -/
def blockBit (x : Block) (i : Nat) : Bool := x.getMsbD i

/-- Byte `k` of a 4-byte word of the key schedule; byte 0 is the first (41_block_cipher.md R138). -/
def wordByte (w : Word) (k : Nat) : Byte := w.extractLsb' (8 * (3 - k)) 8

/-- The 12 bytes of an IV, first byte first. -/
def ivBytes (iv : Iv) : List Byte := (List.range 12).map fun k => iv.extractLsb' (8 * (11 - k)) 8

/-- The IV made of the first 12 bytes of a byte string. -/
def ivOfBytes (bs : List Byte) : Iv := (blockOfBytes bs).extractLsb' 32 96

/-- The bytewise exclusive or of two byte strings, as long as the shorter. -/
def xorBytes (xs ys : List Byte) : List Byte := List.zipWith (fun x y => x ^^^ y) xs ys

/-- The pieces of 16 bytes of a byte string, `n` of them at most; the last may be shorter. -/
def takeChunks : Nat → List Byte → List (List Byte)
  | 0, _ => []
  | n + 1, bs => bs.take 16 :: takeChunks n (bs.drop 16)

/-- The ceil(len/16) pieces of 16 bytes of a byte string; the last may be shorter, and the empty string has none. -/
def chunks16 (bs : List Byte) : List (List Byte) := takeChunks ((bs.length + 15) / 16) bs

/-- Lane `k` of the bus: data bits 8k+7 down to 8k (20_memory.md R63). -/
def laneByte (d : Word) (k : Nat) : Byte := d.extractLsb' (8 * k) 8

/-- The data word whose lane `k` is byte `k` of the string, the lanes above the string zero (R63). -/
def packLanes : List Byte → Word
  | [] => 0#32
  | b :: bs => (packLanes bs <<< 8) ||| b.setWidth 32

end Sys2Proof.Machine
end

