-- ==== Sys2Proof/Machine/Memory.lean ====
section
/-! DEFINITION. Memory as a list of written cells in one canonical form, and the operations on it. -/

namespace Sys2Proof.Machine

/-- The canonical form: addresses strictly rising, so that no address is listed twice. An unlisted address reads as no
value at this layer, so no entry can equal what an unlisted address reads as (log 5). -/
abbrev Memory.wf (m : Memory) : Prop := List.Pairwise (fun c d => c.1 < d.1) m

/-- What has been written at an address, if anything has. -/
def memoryRead : Memory → Nat → Option Byte
  | [], _ => none
  | (a', b) :: m, a => if a = a' then some b else memoryRead m a

/-- Write one byte. -/
def memoryWrite : Memory → Nat → Byte → Memory
  | [], a, b => [(a, b)]
  | (a', b') :: m, a, b =>
    if a < a' then (a, b) :: (a', b') :: m
    else if a = a' then (a, b) :: m
    else (a', b') :: memoryWrite m a b

/-- Write a byte string at ascending addresses. -/
def memoryWriteBytes (m : Memory) (a : Nat) : List Byte → Memory
  | [] => m
  | b :: bs => memoryWriteBytes (memoryWrite m a b) (a + 1) bs

/-- The address lies in one of the three buffer windows (20_memory.md R61). -/
def inBufferWindow (c : Config) (a : Nat) : Bool :=
  (decide (0x10000 ≤ a) && decide (a < 0x10000 + c.bufMax)) ||
  (decide (0x20000 ≤ a) && decide (a < 0x20000 + c.bufMax)) ||
  (decide (0x30000 ≤ a) && decide (a < 0x30000 + c.bufMax))

end Sys2Proof.Machine
end

