-- ==== Sys2Proof/Machine/Operands.lean ====
section
/-! DEFINITION. The operands of commands and of bus accesses: the buffers by byte offset (`MemRead`, `MemWrite` of
00_scope.md R16 and 20_memory.md R69) and the bytes of the 16-byte registers. -/

namespace Sys2Proof.Machine

/-- The three buffers. -/
inductive Space where
  | aad
  | src
  | dst
deriving DecidableEq, Repr

/-- Where a buffer's window begins on the bus (20_memory.md R61). -/
def spaceBase : Space → Nat
  | .aad => 0x10000
  | .src => 0x20000
  | .dst => 0x30000

/-- The byte a buffer cell holds, by bus address: what was written last, else the free value of log 5. -/
def cellByte (s : State) (a : Nat) : Byte := (memoryRead s.mem a).getD (Config.powerUpByte s.resets a)

/-- Byte `off` of a buffer. -/
def bufferByte (s : State) (b : Space) (off : Nat) : Byte := cellByte s (spaceBase b + off)

/-- `MemRead(space, off, n)`: the `n` bytes of a buffer from offset `off` (R16, R69). -/
def memRead (s : State) (b : Space) (off n : Nat) : List Byte :=
  (List.range n).map fun k => bufferByte s b (off + k)

/-- `MemWrite(space, off, n, v)`: the byte string `v`, of length n, written to a buffer from offset `off` (R16, R69). -/
def memWrite (s : State) (b : Space) (off : Nat) (v : List Byte) : State :=
  { s with mem := memoryWriteBytes s.mem (spaceBase b + off) v }

/-- The seven 16-byte registers on the bus (10_state.md R22). -/
inductive BlockReg where
  | keyin
  | blkin
  | blkout
  | ghop
  | ctr
  | tagin
  | tagout
deriving DecidableEq, Repr

/-- The contents of a 16-byte register. -/
def readBlockReg (s : State) : BlockReg → Block
  | .keyin => s.keyin
  | .blkin => s.blkin
  | .blkout => s.blkout
  | .ghop => s.ghop
  | .ctr => s.ctr
  | .tagin => s.tagin
  | .tagout => s.tagout

/-- Write a 16-byte register. -/
def writeBlockReg (s : State) (v : Block) : BlockReg → State
  | .keyin => { s with keyin := v }
  | .blkin => { s with blkin := v }
  | .blkout => { s with blkout := v }
  | .ghop => { s with ghop := v }
  | .ctr => { s with ctr := v }
  | .tagin => { s with tagin := v }
  | .tagout => { s with tagout := v }

/-- BLKOUT and TAGOUT are read only on the bus: host writes are ignored (10_state.md R26, R30). -/
def hostWritable : BlockReg → Bool
  | .blkout => false
  | .tagout => false
  | .keyin => true
  | .blkin => true
  | .ghop => true
  | .ctr => true
  | .tagin => true

/-- KEYIN is write only on the bus: a host read of any of its bytes returns 0x00 (10_state.md R23). -/
def hostReadable : BlockReg → Bool
  | .keyin => false
  | .blkin => true
  | .blkout => true
  | .ghop => true
  | .ctr => true
  | .tagin => true
  | .tagout => true

end Sys2Proof.Machine
end

