-- ==== Sys2Proof/Machine/Field.lean ====
section
/-! DEFINITION. The functions of GFM, multiplication in GF(2^8) modulo x^8+x^4+x^3+x+1 (40_gf256.md). -/

namespace Sys2Proof.Machine

/-- The loop of R111 with `n` iterations to go: `p` is the product so far, `a` the current multiple of the first factor,
`b` what is left of the second. -/
def gfMulLoop : Nat → Byte → Byte → Byte → Byte
  | 0, p, _, _ => p
  | n + 1, p, a, b =>
    gfMulLoop n
      (if b.getLsbD 0 then p ^^^ a else p)
      (if a.getLsbD 7 then (a <<< 1) ^^^ 0x1B#8 else a <<< 1)
      (b >>> 1)

/-- `GfMulRef(a, b)`, the reference multiply: 8 iterations (R111). -/
def gfMulRef (a b : Byte) : Byte := gfMulLoop 8 0x00#8 a b

/-- `GFT[a][b]`: the product in the complete table (R112), a free value before it is built (10_state.md R46). -/
def tableRead : GfTable → Byte → Byte → Byte
  | .unspecified n, a, b => Config.powerUpProduct n a b
  | .complete, a, b => gfMulRef a b

/-- `GfMul(a, b)` on a table, the direct multiply: one lookup (R113). -/
def gfMul (t : GfTable) (a b : Byte) : Byte := tableRead t a b

/-- Cancel the bits 8+n-1 down to 8 of a 15-bit product, from the top bit down (R116). -/
def reduceFrom : Nat → BitVec 15 → BitVec 15
  | 0, p => p
  | n + 1, p => reduceFrom n (if p.getLsbD (8 + n) then p ^^^ (0x11B#15 <<< n) else p)

/-- `Reduce15(p)`: the 15-bit product modulo the reduction polynomial (R116). -/
def reduce15 (p : BitVec 15) : Byte := (reduceFrom 7 p).setWidth 8

/-- `GfMulFast(a, b)` on a table, the split multiply: three lookups in the 16 × 16 corner, Karatsuba's middle term, one
reduction (R116, with the combination as 90_conflicts.md C1 corrects it). -/
def gfMulFast (t : GfTable) (a b : Byte) : Byte :=
  let aL := a &&& 0x0F#8
  let aH := a >>> 4
  let bL := b &&& 0x0F#8
  let bH := b >>> 4
  let z0 := tableRead t aL bL
  let z1 := tableRead t (aL ^^^ aH) (bL ^^^ bH)
  let z2 := tableRead t aH bH
  let m := z1 ^^^ z0 ^^^ z2
  reduce15 (z0.setWidth 15 ^^^ (m.setWidth 15 <<< 4) ^^^ (z2.setWidth 15 <<< 8))

end Sys2Proof.Machine
end

