-- ==== Sys2Proof/Machine/Cipher.lean ====
section
/-! DEFINITION. The functions of BCC, the AES-128 block cipher, encryption only (41_block_cipher.md). State byte n is
block byte n, row n mod 4 of column n / 4 (R130). There is no inverse cipher (R141). -/

namespace Sys2Proof.Machine

/-- The table of R131, one row of 16 bytes for each high nibble. -/
def sboxRows : List Block := [
  0x637c777bf26b6fc53001672bfed7ab76#128,
  0xca82c97dfa5947f0add4a2af9ca472c0#128,
  0xb7fd9326363ff7cc34a5e5f171d83115#128,
  0x04c723c31896059a071280e2eb27b275#128,
  0x09832c1a1b6e5aa0523bd6b329e32f84#128,
  0x53d100ed20fcb15b6acbbe394a4c58cf#128,
  0xd0efaafb434d338545f9027f503c9fa8#128,
  0x51a3408f929d38f5bcb6da2110fff3d2#128,
  0xcd0c13ec5f974417c4a77e3d645d1973#128,
  0x60814fdc222a908846eeb814de5e0bdb#128,
  0xe0323a0a4906245cc2d3ac629195e479#128,
  0xe7c8376d8dd54ea96c56f4ea657aae08#128,
  0xba78252e1ca6b4c6e8dd741f4bbd8b8a#128,
  0x703eb5664803f60e613557b986c11d9e#128,
  0xe1f8981169d98e949b1e87e9ce5528df#128,
  0x8ca1890dbfe6426841992d0fb054bb16#128]

/-- `SBOX[v]`, v = 16·row + col (R131). -/
def sbox (v : Byte) : Byte := blockByte (sboxRows.getD (v.toNat / 16) 0#128) (v.toNat % 16)

/-- `RCON[j]`, indexed 1..10 (R133). -/
def rcon (j : Nat) : Byte :=
  [0x01#8, 0x02#8, 0x04#8, 0x08#8, 0x10#8, 0x20#8, 0x40#8, 0x80#8, 0x1b#8, 0x36#8].getD (j - 1) 0#8

/-- `SubBytes(s)` (R134). -/
def subBytes (s : Block) : Block := blockOfFn fun n => sbox (blockByte s n)

/-- `ShiftRows(s)`: t[4c + r] = s[4·((c + r) mod 4) + r], with n = 4c + r (R135). -/
def shiftRows (s : Block) : Block :=
  blockOfFn fun n => blockByte s (4 * ((n / 4 + n % 4) % 4) + n % 4)

/-- One byte of a transformed column from its bytes a0..a3: row `r` of the matrix of R136. -/
def mixRow (t : GfTable) (a0 a1 a2 a3 : Byte) : Nat → Byte
  | 0 => gfMul t 2 a0 ^^^ gfMul t 3 a1 ^^^ a2 ^^^ a3
  | 1 => a0 ^^^ gfMul t 2 a1 ^^^ gfMul t 3 a2 ^^^ a3
  | 2 => a0 ^^^ a1 ^^^ gfMul t 2 a2 ^^^ gfMul t 3 a3
  | _ => gfMul t 3 a0 ^^^ a1 ^^^ a2 ^^^ gfMul t 2 a3

/-- `MixColumns(s)`: each column times the matrix, through the direct multiply (R136). -/
def mixColumns (t : GfTable) (s : Block) : Block :=
  blockOfFn fun n =>
    let c := 4 * (n / 4)
    mixRow t (blockByte s c) (blockByte s (c + 1)) (blockByte s (c + 2)) (blockByte s (c + 3)) (n % 4)

/-- Round key `r`, the bytes 16r .. 16r+15 of a schedule (10_state.md R38). -/
def roundKey (rk : Schedule) (r : Nat) : Block := rk.extractLsb' (128 * (10 - r)) 128

/-- `AddRoundKey(s, rk, r)` (R137). -/
def addRoundKey (s : Block) (rk : Schedule) (r : Nat) : Block := s ^^^ roundKey rk r

/-- `RotWord(w)`: the first byte goes to the end (R138). -/
def rotWord (w : Word) : Word := wordByte w 1 ++ wordByte w 2 ++ wordByte w 3 ++ wordByte w 0

/-- `SubWord(w)` (R138). -/
def subWord (w : Word) : Word :=
  sbox (wordByte w 0) ++ sbox (wordByte w 1) ++ sbox (wordByte w 2) ++ sbox (wordByte w 3)

/-- The value XORed into word `i - 4` to make word `i`, from the previous word: rotation, substitution and the round
constant in the first byte when i mod 4 = 0, else the previous word itself (R139). -/
def keyTemp (i : Nat) (previous : Word) : Word :=
  if i % 4 = 0 then subWord (rotWord previous) ^^^ (rcon (i / 4) ++ 0#24) else previous

/-- One pass of the loop of R139 on the words made so far, newest first: word `i` is put in front. -/
def expandStep (words : List Word) (i : Nat) : List Word :=
  (words.getD 3 0#32 ^^^ keyTemp i (words.getD 0 0#32)) :: words

/-- Words 3, 2, 1, 0 of the schedule: the key (R139). -/
def keyWords (key : Block) : List Word :=
  [key.extractLsb' 0 32, key.extractLsb' 32 32, key.extractLsb' 64 32, key.extractLsb' 96 32]

/-- The 44 words of the schedule, newest first: i runs from 4 to 43 (R139). -/
def expandWords (key : Block) : List Word := (List.range' 4 40).foldl expandStep (keyWords key)

/-- A word appended after the bytes packed so far. -/
def appendWord (rk : Schedule) (w : Word) : Schedule := (rk <<< 32) ||| w.setWidth 1408

/-- `ExpandKey(key)`: the 176 bytes of the schedule (R139). -/
def expandKey (key : Block) : Schedule := (expandWords key).reverse.foldl appendWord 0#1408

/-- Key-schedule word `i`, the bytes 4i .. 4i+3 of a schedule (10_state.md R38). -/
def scheduleWord (rk : Schedule) (i : Nat) : Word := rk.extractLsb' (32 * (43 - i)) 32

/-- One of the nine full rounds (R140). -/
def fullRound (t : GfTable) (rk : Schedule) (s : Block) (r : Nat) : Block :=
  addRoundKey (mixColumns t (shiftRows (subBytes s))) rk r

/-- `EncryptBlock(in, rk)` with the table it multiplies by: AddRoundKey 0, rounds 1 to 9, the final round without
MixColumns (R140). -/
def encryptBlock (t : GfTable) (x : Block) (rk : Schedule) : Block :=
  let s := (List.range' 1 9).foldl (fullRound t rk) (addRoundKey x rk 0)
  addRoundKey (shiftRows (subBytes s)) rk 10

end Sys2Proof.Machine
end

