-- ==== Sys2Proof/Machine/Mode.lean ====
section
/-! DEFINITION. The functions of AEE: counter, keystream, GHASH (42_ctr_ghash.md) and the two functions of the mode
(43_aead.md section 2). -/

namespace Sys2Proof.Machine

/-- `CounterBlock0(iv)`: iv ‖ 00 00 00 00 (42_ctr_ghash.md R160). -/
def counterBlock0 (iv : Iv) : Block := iv ++ 0#32

/-- `Inc128(c)`: the whole block plus one modulo 2^128 (R161). -/
def inc128 (c : Block) : Block := BitVec.ofNat 128 ((c.toNat + 1) % 2 ^ 128)

/-- The keystream loop of R163 over the pieces still to do, from the current counter. -/
def ctrXorChunks (t : GfTable) (rk : Schedule) : Block → List (List Byte) → List Byte
  | _, [] => []
  | ctr, c :: cs => xorBytes c (blockBytes (encryptBlock t ctr rk)) ++ ctrXorChunks t rk (inc128 ctr) cs

/-- `CtrXor(rk, iv, data)`: the counter-mode transform, used in both directions (R163). -/
def ctrXor (t : GfTable) (rk : Schedule) (iv : Iv) (data : List Byte) : List Byte :=
  ctrXorChunks t rk (counterBlock0 iv) (chunks16 data)

/-- `ShiftRight1(v)`: the block shifted right by one bit (R165). -/
def shiftRight1 (v : Block) : Block := v >>> 1

/-- The running value multiplied by x: shifted right, and 0xE1 XORed into the first byte when a 1 was shifted out of
bit 127 (R166). -/
def ghTimesX (v : Block) : Block :=
  if blockBit v 127 then shiftRight1 v ^^^ 0xE1000000000000000000000000000000#128 else shiftRight1 v

/-- The loop of R166 with `n` iterations to go, the next bit tested being bit 128 - n of `x`. -/
def ghMulLoop (x : Block) : Nat → Block → Block → Block
  | 0, z, _ => z
  | n + 1, z, v => ghMulLoop x n (if blockBit x (127 - n) then z ^^^ v else z) (ghTimesX v)

/-- `GhMul(x, h)`: multiplication in GF(2^128) (R166). -/
def ghMul (x h : Block) : Block := ghMulLoop x 128 0#128 h

/-- `Blocks16(d)`: the pieces of 16 bytes, the last filled with zero bytes (R168). -/
def blocks16 (d : List Byte) : List Block := (chunks16 d).map blockOfBytes

/-- `LenBlock(alen, clen)`: the two lengths in bits, 8 bytes each, big-endian (R169). -/
def lenBlock (alen clen : Nat) : Block := BitVec.ofNat 64 (8 * alen) ++ BitVec.ofNat 64 (8 * clen)

/-- Absorb one block: Y = (Y ⊕ block) ⊙ H (R170). -/
def ghashAbsorb (h y b : Block) : Block := ghMul (y ^^^ b) h

/-- `Ghash(h, aad, c)`: AAD and ciphertext padded separately, then the length block (R170). -/
def ghash (h : Block) (aad c : List Byte) : Block :=
  let y := (blocks16 aad).foldl (ghashAbsorb h) 0#128
  let y := (blocks16 c).foldl (ghashAbsorb h) y
  ghashAbsorb h y (lenBlock aad.length c.length)

/-- `Seal(rk, h, iv, p, aad)`: the envelope iv ‖ c and the tag, which is the GHASH value itself (43_aead.md R183). -/
def sealMessage (t : GfTable) (rk : Schedule) (h : Block) (iv : Iv) (p aad : List Byte) : List Byte × Block :=
  let c := ctrXor t rk iv p
  (ivBytes iv ++ c, ghash h aad c)

/-- `Open(rk, h, env, aad, tag)`: the plaintext, or nothing for AUTH_FAIL (43_aead.md R184). -/
def openMessage (t : GfTable) (rk : Schedule) (h : Block) (env aad : List Byte) (tag : Block) : Option (List Byte) :=
  let iv := ivOfBytes (env.take 12)
  let c := env.drop 12
  if ghash h aad c = tag then some (ctrXor t rk iv c) else none

end Sys2Proof.Machine
end

