-- ==== Sys2Proof/Machine/Ops.lean ====
section
/-! DEFINITION. The operations that the meanings of commands share: the three failures, completion, the prologue of a
command, the caches, the random source, and reset. -/

namespace Sys2Proof.Machine

/-- `raise CONTRACT`: FATAL and RESULT = 3, nothing else (60_exceptions.md R214). -/
def raiseContract (s : State) : State := { s with fatal := true, result := .contract }

/-- `raise MALFORMED`: DSTLEN and TAGOUT zero, RESULT = 1, nothing else (60_exceptions.md R215). -/
def raiseMalformed (s : State) : State := { s with dstlen := 0#32, tagout := 0#128, result := .malformed }

/-- `raise AUTH_FAIL`: DSTLEN and TAGOUT zero, RESULT = 2, nothing else (60_exceptions.md R216). -/
def raiseAuthFail (s : State) : State := { s with dstlen := 0#32, tagout := 0#128, result := .authFail }

/-- A command that ends without a raise: RESULT = 0 (30_encoding.md R92). -/
def complete (s : State) : State := { s with result := .ok }

/-- Run the rule of a command, unless FATAL is set: then nothing changes (30_encoding.md R92). The gate stands here, in
each meaning, and so comes before everything the command does (log 12). -/
def command (rule : State → State) (s : State) : Host.Outcome State Fault Refusal :=
  .next (if s.fatal then s else rule s)

/-- A command that needs the key: CONTRACT when KEY_VALID = 0 (60_exceptions.md R213). -/
def withKey (rule : State → State) (s : State) : State :=
  if s.keyValid then rule s else raiseContract s

/-- `EnsureTable()` (40_gf256.md R112): all entries in one go; the order of the writes is not observable. -/
def ensureTable (s : State) : State :=
  if s.tblReady then s else { s with gft := .complete, tblReady := true }

/-- Fill RK if it is not cached: the second half of `EnsureRK()` (41_block_cipher.md R143). -/
def fillRk (s : State) : State :=
  if s.rkValid then s else { s with rk := expandKey s.key, rkValid := true }

/-- `EnsureRK()` (41_block_cipher.md R143). -/
def ensureRk (s : State) : State := fillRk (ensureTable s)

/-- Fill H if it is not cached: the second half of `EnsureH()` (42_ctr_ghash.md R171). -/
def fillH (s : State) : State :=
  if s.hValid then s else { s with h := encryptBlock s.gft 0#128 s.rk, hValid := true }

/-- `EnsureH()` (42_ctr_ghash.md R171). -/
def ensureH (s : State) : State := fillH (ensureRk s)

/-- `draw(12)`: the value the random source delivers next, the next one supplied or else a free value
(10_state.md R44, log 3). -/
def nextDraw (s : State) : Iv :=
  match s.rng with
  | iv :: _ => iv
  | [] => Config.rngDraw s.draws

/-- The random source after one sample (log 3). -/
def consumeDraw (s : State) : State := { s with rng := s.rng.tail, draws := s.draws + 1 }

/-- The reset input (70_reset_and_hazards.md R240): every element takes its reset value, memories and table become
unspecified anew. BUF_MAX and what the other agents are still to do are no state of the block and stay (logs 4, 10). -/
def applyReset (s : State) : State :=
  { State.reset with
    gft := .unspecified (s.resets + 1)
    cfg := s.cfg
    inputs := s.inputs
    rng := s.rng
    draws := s.draws
    resets := s.resets + 1 }

end Sys2Proof.Machine
end

