-- ==== Sys2Proof/Machine/Bus.lean ====
section
/-! DEFINITION. The bus port: the address map, alignment and errors, access rights, byte lanes and the FATAL gate
(20_memory.md, 60_exceptions.md R214). -/

namespace Sys2Proof.Machine

/-- The 32-bit word registers (R61). -/
inductive WordReg where
  | cmd
  | status
  | aadlen
  | srclen
  | dstlen
  | gfp
deriving DecidableEq, Repr

/-- One byte-addressed cell: byte `k` of a 16-byte register, or byte `off` of a buffer (R62). -/
inductive ByteCell where
  | reg (r : BlockReg) (k : Nat)
  | buf (b : Space) (off : Nat)
deriving DecidableEq, Repr

/-- What an address belongs to. -/
inductive Element where
  | word (r : WordReg)
  | byte (c : ByteCell)
deriving DecidableEq, Repr

/-- The address map of R61, row by row; nothing for an unmapped address. -/
def elementAt (c : Config) (a : Nat) : Option Element :=
  if a < 0x00004 then some (.word .cmd)
  else if a < 0x00008 then some (.word .status)
  else if a < 0x0000C then some (.word .aadlen)
  else if a < 0x00010 then some (.word .srclen)
  else if a < 0x00014 then some (.word .dstlen)
  else if a < 0x00018 then some (.word .gfp)
  else if a < 0x00020 then none
  else if a < 0x00030 then some (.byte (.reg .keyin (a - 0x00020)))
  else if a < 0x00040 then some (.byte (.reg .blkin (a - 0x00030)))
  else if a < 0x00050 then some (.byte (.reg .blkout (a - 0x00040)))
  else if a < 0x00060 then some (.byte (.reg .ghop (a - 0x00050)))
  else if a < 0x00070 then some (.byte (.reg .ctr (a - 0x00060)))
  else if a < 0x00080 then some (.byte (.reg .tagin (a - 0x00070)))
  else if a < 0x00090 then some (.byte (.reg .tagout (a - 0x00080)))
  else if a < 0x10000 then none
  else if a < 0x20000 then
    if a < 0x10000 + c.bufMax then some (.byte (.buf .aad (a - 0x10000))) else none
  else if a < 0x30000 then
    if a < 0x20000 + c.bufMax then some (.byte (.buf .src (a - 0x20000))) else none
  else if a < 0x40000 then
    if a < 0x30000 + c.bufMax then some (.byte (.buf .dst (a - 0x30000))) else none
  else none

/-- The byte cell at an address, nothing when it is unmapped or belongs to a word register. -/
def byteCellAt (c : Config) (a : Nat) : Option ByteCell :=
  match elementAt c a with
  | some (.byte cell) => some cell
  | some (.word _) => none
  | none => none

/-- What a legal access touches: a word register whole, or one or four byte cells. -/
inductive Target where
  | word (r : WordReg)
  | cells (cs : List ByteCell)
deriving DecidableEq, Repr

/-- Four cells at ascending addresses, nothing if any of them is unmapped (R65). -/
def fourCellsAt (c : Config) (a : Nat) : Option (List ByteCell) :=
  match byteCellAt c a, byteCellAt c (a + 1), byteCellAt c (a + 2), byteCellAt c (a + 3) with
  | some c0, some c1, some c2, some c3 => some [c0, c1, c2, c3]
  | _, _, _, _ => none

/-- What an access of a given size at an address touches; nothing where the port answers `error`: a misaligned 4-byte
access, a 1-byte access to a word register (R64), an unmapped address (R65). -/
def targetAt (c : Config) (a : Nat) : Size → Option Target
  | .one => (byteCellAt c a).map fun cell => .cells [cell]
  | .four =>
    if a % 4 = 0 then
      match elementAt c a with
      | some (.word r) => some (.word r)
      | some (.byte _) => (fourCellsAt c a).map .cells
      | none => none
    else none

/-- The value a host read of a word register gives: CMD reads 0 (R66), GFP's bits 31:8 are zero (10_state.md R31). -/
def wordRegValue (s : State) : WordReg → Word
  | .cmd => 0#32
  | .status => statusWord s
  | .aadlen => s.aadlen
  | .srclen => s.srclen
  | .dstlen => s.dstlen
  | .gfp => s.gfp.setWidth 32

/-- The value a host read of a byte cell gives: KEYIN reads 0, and DSTBUF reads 0 at an offset ≥ DSTLEN (R66). -/
def byteCellValue (s : State) : ByteCell → Byte
  | .reg r k => if hostReadable r then blockByte (readBlockReg s r) k else 0#8
  | .buf .aad off => bufferByte s .aad off
  | .buf .src off => bufferByte s .src off
  | .buf .dst off => if off < s.dstlen.toNat then bufferByte s .dst off else 0#8

/-- The data of a read, as if FATAL were clear. -/
def targetValue (s : State) : Target → Word
  | .word r => wordRegValue s r
  | .cells cs => packLanes (cs.map (byteCellValue s))

/-- The data of a read: while FATAL is set a read of anything but STATUS gives 0 (60_exceptions.md R214). -/
def readTarget (s : State) (t : Target) : Word :=
  if s.fatal then (if t = .word .status then statusWord s else 0#32) else targetValue s t

/-- The response to `Read(addr, size)` (R60). -/
def busRead (s : State) (a : Addr) (size : Size) : Response :=
  match targetAt s.cfg a.toNat size with
  | some t => .readOk (readTarget s t)
  | none => .error

/-- A host write to a word register other than CMD: AADLEN and SRCLEN take any 32-bit value (10_state.md R32, R33), the
read-only ones ignore it (R66). CMD stores nothing; a write to it is a command and is not handled here. -/
def storeWordReg (s : State) (d : Word) : WordReg → State
  | .cmd => s
  | .status => s
  | .aadlen => { s with aadlen := d }
  | .srclen => { s with srclen := d }
  | .dstlen => s
  | .gfp => s

/-- A host write to a byte cell; the read-only ones ignore it (R66). -/
def storeByteCell (s : State) (b : Byte) : ByteCell → State
  | .reg r k => if hostWritable r then writeBlockReg s (setBlockByte (readBlockReg s r) k b) r else s
  | .buf .aad off => memWrite s .aad off [b]
  | .buf .src off => memWrite s .src off [b]
  | .buf .dst _ => s

/-- Write the lanes from lane `k` upward to the cells of an access (R63). -/
def storeCells (s : State) (d : Word) (k : Nat) : List ByteCell → State
  | [] => s
  | c :: cs => storeCells (storeByteCell s (laneByte d k) c) d (k + 1) cs

/-- A host write to what it touches, as if FATAL were clear. -/
def storeTarget (s : State) (d : Word) : Target → State
  | .word r => storeWordReg s d r
  | .cells cs => storeCells s d 0 cs

/-- A host write: while FATAL is set it changes nothing (60_exceptions.md R214). -/
def writeTarget (s : State) (d : Word) (t : Target) : State :=
  if s.fatal then s else storeTarget s d t

/-- The state with the input just taken removed and its response recorded (logs 1, 9). -/
def answered (s : State) (rest : List Input) (r : Option Response) : State :=
  { s with inputs := rest, answer := r }

end Sys2Proof.Machine
end

