-- ==== Sys2Proof/Machine/Aead.lean ====
section
/-! DEFINITION. The commands of the engine as a whole: AEENC, AEDEC, CLR (43_aead.md). -/

namespace Sys2Proof.Machine

/-- AEENC after its checks (R186): caches, one draw, `Seal`, then DSTBUF, DSTLEN and TAGOUT. -/
def aeencWork (s : State) : State :=
  let t := ensureH s
  let iv := nextDraw t
  let u := consumeDraw t
  let aad := memRead u .aad 0 u.aadlen.toNat
  let p := memRead u .src 0 u.srclen.toNat
  let sealed := sealMessage u.gft u.rk u.h iv p aad
  complete { memWrite u .dst 0 sealed.1 with dstlen := u.srclen + 12#32, tagout := sealed.2 }

/-- The rule of AEENC with a key (R186): the capacity of AADBUF, then that of DSTBUF, which must hold the 12 bytes of the
IV too. `SRCLEN > BUF_MAX - 12` is written with the 12 on the other side, on unbounded integers (00_scope.md R16). -/
def aeencRule (s : State) : State :=
  if s.aadlen.toNat > s.cfg.bufMax then raiseContract s
  else if s.srclen.toNat + 12 > s.cfg.bufMax then raiseContract s
  else aeencWork s

/-- AEENC (R186). -/
def execAeenc (s : State) : Host.Outcome State Fault Refusal := command (withKey aeencRule) s

/-- AEDEC after its checks (R190): caches, `Open`, then AUTH_FAIL, or DSTBUF, DSTLEN and TAGOUT. -/
def aedecWork (s : State) : State :=
  let t := ensureH s
  let env := memRead t .src 0 t.srclen.toNat
  let aad := memRead t .aad 0 t.aadlen.toNat
  match openMessage t.gft t.rk t.h env aad t.tagin with
  | none => raiseAuthFail t
  | some p => complete { memWrite t .dst 0 p with dstlen := t.srclen - 12#32, tagout := 0#128 }

/-- The rule of AEDEC with a key (R190): the capacities, then the 12 bytes of the IV. -/
def aedecRule (s : State) : State :=
  if s.aadlen.toNat > s.cfg.bufMax then raiseContract s
  else if s.srclen.toNat > s.cfg.bufMax then raiseContract s
  else if s.srclen.toNat < 12 then raiseMalformed s
  else aedecWork s

/-- AEDEC (R190). -/
def execAedec (s : State) : Host.Outcome State Fault Refusal := command (withKey aedecRule) s

/-- The rule of CLR (R195). -/
def clrRule (s : State) : State :=
  complete { s with
    keyin := 0#128
    key := 0#128
    rk := 0#1408
    h := 0#128
    keyValid := false
    rkValid := false
    hValid := false
    blkin := 0#128
    blkout := 0#128
    ghop := 0#128
    ctr := 0#128
    tagin := 0#128
    tagout := 0#128
    gfp := 0#8
    aadlen := 0#32
    srclen := 0#32
    dstlen := 0#32 }

/-- CLR (R195). -/
def execClr (s : State) : Host.Outcome State Fault Refusal := command clrRule s

end Sys2Proof.Machine
end

