-- ==== Sys2Proof/Machine/Aee.lean ====
section
/-! DEFINITION. The commands for the parts of AEE: HDERIVE, CTRINC, GHMUL (42_ctr_ghash.md). -/

namespace Sys2Proof.Machine

/-- The rule of HDERIVE with a key (R172). -/
def hderiveRule (s : State) : State := complete (ensureH s)

/-- HDERIVE (R172). -/
def execHderive (s : State) : Host.Outcome State Fault Refusal := command (withKey hderiveRule) s

/-- The rule of CTRINC (R162). -/
def ctrincRule (s : State) : State := complete { s with ctr := inc128 s.ctr }

/-- CTRINC (R162). -/
def execCtrinc (s : State) : Host.Outcome State Fault Refusal := command ctrincRule s

/-- The rule of GHMUL (R167); it does not use the table. -/
def ghmulRule (s : State) : State := complete { s with blkout := ghMul s.blkin s.ghop }

/-- GHMUL (R167). -/
def execGhmul (s : State) : Host.Outcome State Fault Refusal := command ghmulRule s

end Sys2Proof.Machine
end

