-- ==== Sys2Proof/Machine/Bcc.lean ====
section
/-! DEFINITION. The commands of BCC: KLOAD, KEXP, ENCBLK (41_block_cipher.md). -/

namespace Sys2Proof.Machine

/-- The rule of KLOAD (R142): CONTRACT over a loaded key; else KEYIN moves to KEY and is erased. -/
def kloadRule (s : State) : State :=
  if s.keyValid then raiseContract s
  else complete { s with key := s.keyin, keyin := 0#128, keyValid := true }

/-- KLOAD (R142). -/
def execKload (s : State) : Host.Outcome State Fault Refusal := command kloadRule s

/-- The rule of KEXP with a key (R144). -/
def kexpRule (s : State) : State := complete (ensureRk s)

/-- KEXP (R144). -/
def execKexp (s : State) : Host.Outcome State Fault Refusal := command (withKey kexpRule) s

/-- The rule of ENCBLK with a key (R145). -/
def encblkRule (s : State) : State :=
  let t := ensureRk s
  complete { t with blkout := encryptBlock t.gft t.blkin t.rk }

/-- ENCBLK (R145). -/
def execEncblk (s : State) : Host.Outcome State Fault Refusal := command (withKey encblkRule) s

end Sys2Proof.Machine
end

