-- ==== Sys2Proof/Machine/Gfm.lean ====
section
/-! DEFINITION. The commands of GFM: GFINIT, GFMUL, GFMULF (40_gf256.md). -/

namespace Sys2Proof.Machine

/-- The rule of GFINIT (R114). -/
def gfinitRule (s : State) : State := complete (ensureTable s)

/-- GFINIT (R114). -/
def execGfinit (s : State) : Host.Outcome State Fault Refusal := command gfinitRule s

/-- The rule of GFMUL a, b (R115): `EnsureTable()` inside `GfMul`, one lookup, GFP. -/
def gfmulRule (a b : Byte) (s : State) : State :=
  let t := ensureTable s
  complete { t with gfp := gfMul t.gft a b }

/-- GFMUL a, b (R115). -/
def execGfmul (a b : Byte) (s : State) : Host.Outcome State Fault Refusal := command (gfmulRule a b) s

/-- The rule of GFMULF a, b (R117): `EnsureTable()` inside `GfMulFast`, three lookups, GFP. -/
def gfmulfRule (a b : Byte) (s : State) : State :=
  let t := ensureTable s
  complete { t with gfp := gfMulFast t.gft a b }

/-- GFMULF a, b (R117). -/
def execGfmulf (a b : Byte) (s : State) : Host.Outcome State Fault Refusal := command (gfmulfRule a b) s

end Sys2Proof.Machine
end

