-- ==== Sys2Proof/Machine/Dispatch.lean ====
section
/-! DEFINITION. What each command does: one arm per constructor, each one call of the command's meaning. -/

namespace Sys2Proof.Machine

def exec (i : Instr) (s : State) : Host.Outcome State Fault Refusal :=
  match i with
  | .gfinit => Sys2Proof.Machine.execGfinit s
  | .gfmul a b => Sys2Proof.Machine.execGfmul a b s
  | .gfmulf a b => Sys2Proof.Machine.execGfmulf a b s
  | .kload => Sys2Proof.Machine.execKload s
  | .kexp => Sys2Proof.Machine.execKexp s
  | .encblk => Sys2Proof.Machine.execEncblk s
  | .hderive => Sys2Proof.Machine.execHderive s
  | .ctrinc => Sys2Proof.Machine.execCtrinc s
  | .ghmul => Sys2Proof.Machine.execGhmul s
  | .aeenc => Sys2Proof.Machine.execAeenc s
  | .aedec => Sys2Proof.Machine.execAedec s
  | .clr => Sys2Proof.Machine.execClr s

end Sys2Proof.Machine
end

