-- ==== Sys2Proof/Machine/Issue.lean ====
section
/-! DEFINITION. Issuing a command (30_encoding.md R92), performing a bus transaction (20_memory.md R60), and taking the
next input. -/

namespace Sys2Proof.Machine

/-- `Issue(w)` (R92): nothing while FATAL is set, CONTRACT for an illegal word, else the decoded command. The gate stands
inside `command`, which both ways go through (log 12). -/
def issue (w : Word) (s : State) : Host.Outcome State Fault Refusal :=
  match decode w with
  | .ok i => exec i s
  | .error _ => command raiseContract s

/-- Perform a bus transaction; `rest` are the inputs after it. A 4-byte write to CMD issues a command and answers `ok`
whatever comes of it (R92); no command reads the answer, so it is recorded first. -/
def performTransaction (t : Transaction) (rest : List Input) (s : State) : Host.Outcome State Fault Refusal :=
  match t with
  | .read a size => .next (answered s rest (some (busRead s a size)))
  | .write a size d =>
    match targetAt s.cfg a.toNat size with
    | none => .next (answered s rest (some .error))
    | some (.word .cmd) => issue d (answered s rest (some .writeOk))
    | some g => .next (writeTarget (answered s rest (some .writeOk)) d g)

/-- Take the next input. With none the engine "is idle and waits for bus transactions" (70_reset_and_hazards.md R240,
log 8). -/
def takeInput (s : State) : Host.Outcome State Fault Refusal :=
  match s.inputs with
  | [] => .next s
  | .reset :: rest => .next (applyReset (answered s rest none))
  | .bus t :: rest => performTransaction t rest s

/-- The bus transaction that issues a command word: `Write(0x00000, 4, w)` (R92). -/
def commandWrite (w : Word) : Input := .bus (.write 0x00000#18 .four w)

end Sys2Proof.Machine
end

