-- ==== Sys2Proof/Machine/Step.lean ====
section
/-! DEFINITION. One step of QAE: the next input from the outside world, taken whole (20_memory.md R68, R70). -/

namespace Sys2Proof.Machine

/-- One step: one bus transaction, with the command it issues if it issues one, or one reset, or idling. -/
def step (s : State) : Host.Outcome State Fault Refusal := takeInput s

/-- The state in which the next input is the bus write that issues the command word of the given bits, in the opcode
table's numbering. QAE fetches no instruction: a command word is the data of a write to CMD (log 2). -/
def State.withFetchWord (s : State) (nbits w : Nat) : State :=
  { s with inputs := commandWrite (tableWord nbits w) :: s.inputs }

end Sys2Proof.Machine
end

