-- ==== Sys2Proof/Safety.lean ====
section
/-! DEFINITION. What claims about QAE take as given: a safe state, the invariant of the machine, and what a host can
observe. -/

namespace Sys2Proof.Machine

/-- A safe state: no contract violation has occurred. FATAL is "a state that is never a good final state, with every
later claim taking FATAL = 0 as a premise" (60_exceptions.md R214). -/
abbrev State.safe (s : State) : Prop := s.fatal = false

/-- The table invariant: "Whenever TBL_READY = 1, GFT[i][j] = GfMulRef(i, j) for all i, j" (10_state.md R40); the table
with those entries is `GfTable.complete`. -/
abbrev State.tableInv (s : State) : Prop := s.tblReady = true → s.gft = .complete

/-- The invariants of the STATUS bits (10_state.md R36). -/
structure State.FlagInv (s : State) : Prop where
  rkValid_keyValid : s.rkValid = true → s.keyValid = true
  rkValid_tblReady : s.rkValid = true → s.tblReady = true
  hValid_rkValid : s.hValid = true → s.rkValid = true
  fatal_iff_contract : s.fatal = true ↔ s.result = .contract

/-- The invariants of the derived values: the table, RK and H are what their valid bits say (10_state.md R38 to R40), and
KEY, RK and H are zero while theirs are 0 (10_state.md R24, 93_implementation_defined.md U16). -/
structure State.CacheInv (s : State) : Prop where
  table : s.tableInv
  schedule : s.rkValid = true → s.rk = expandKey s.key
  subkey : s.hValid = true → s.h = encryptBlock .complete 0#128 s.rk
  key_zero : s.keyValid = false → s.key = 0#128
  rk_zero : s.rkValid = false → s.rk = 0#1408
  h_zero : s.hValid = false → s.h = 0#128

/-- The invariants of the buffers: memory is canonical and lies in the three windows, and DSTBUF[0..DSTLEN), which the
host can read, is within the buffer and has been written (10_state.md R43). -/
structure State.MemInv (s : State) : Prop where
  canonical : Memory.wf s.mem
  windows : ∀ c ∈ s.mem, inBufferWindow s.cfg c.1 = true
  dstlen_le : s.dstlen.toNat ≤ s.cfg.bufMax
  dst_written : ∀ k < s.dstlen.toNat, (memoryRead s.mem (spaceBase .dst + k)).isSome = true

/-- The invariant of the machine: the parameter is in its range and everything above holds. -/
structure State.Inv (s : State) : Prop where
  config : s.cfg.wellFormed = true
  flags : s.FlagInv
  caches : s.CacheInv
  memory : s.MemInv

/-- Two states that a host cannot tell apart by reading the bus: they agree on everything except KEYIN, KEY, RK, H, GFT
and the cells of DSTBUF at offsets ≥ DSTLEN (10_state.md R45, R43). -/
structure State.SameVisible (s t : State) : Prop where
  cfg : s.cfg = t.cfg
  status : statusWord s = statusWord t
  fatal : s.fatal = t.fatal
  aadlen : s.aadlen = t.aadlen
  srclen : s.srclen = t.srclen
  dstlen : s.dstlen = t.dstlen
  gfp : s.gfp = t.gfp
  blkin : s.blkin = t.blkin
  blkout : s.blkout = t.blkout
  ghop : s.ghop = t.ghop
  ctr : s.ctr = t.ctr
  tagin : s.tagin = t.tagin
  tagout : s.tagout = t.tagout
  aadbuf : ∀ off < 0x10000, bufferByte s .aad off = bufferByte t .aad off
  srcbuf : ∀ off < 0x10000, bufferByte s .src off = bufferByte t .src off
  dstbuf : ∀ off < s.dstlen.toNat, bufferByte s .dst off = bufferByte t .dst off

/-- An access that the port must answer with `error`: misaligned, one byte of a word register, or with a byte on an
unmapped address (20_memory.md R64, R65). -/
def badAccess (c : Config) (a : Nat) (z : Size) : Prop :=
  (z = .four ∧ a % 4 ≠ 0) ∨ (z = .one ∧ ∃ r, elementAt c a = some (.word r)) ∨
    elementAt c a = none ∨ (z = .four ∧ ∃ k < 4, elementAt c (a + k) = none)

end Sys2Proof.Machine
end

