-- ==== Sys2Proof/Certificates/Slice0/Obligations.lean ====
section
/-! DEFINITION. The statements for the provers, in the order of OBLIGATIONS.json. R<n> is a numbered rule of spec/. -/

open Sys2Proof Sys2Proof.Machine

/-! ### Encoding (30_encoding.md) -/

/-- The words of T-ENC-1 (95_test_vectors.md) decode as the table says, the illegal ones by the reason R95 gives. -/
def Obligations.DecodeOfSpecWords : Prop :=
  decode 0x00000001#32 = .ok .gfinit ∧
  decode 0x00835702#32 = .ok (.gfmul 0x57#8 0x83#8) ∧
  decode 0x00120003#32 = .ok (.gfmulf 0x00#8 0x12#8) ∧
  decode 0x00001203#32 = .ok (.gfmulf 0x12#8 0x00#8) ∧
  decode 0x00000010#32 = .ok .kload ∧
  decode 0x00000011#32 = .ok .kexp ∧
  decode 0x00000012#32 = .ok .encblk ∧
  decode 0x00000020#32 = .ok .hderive ∧
  decode 0x00000021#32 = .ok .ctrinc ∧
  decode 0x00000022#32 = .ok .ghmul ∧
  decode 0x00000030#32 = .ok .aeenc ∧
  decode 0x00000031#32 = .ok .aedec ∧
  decode 0x0000003F#32 = .ok .clr ∧
  decode 0x00000000#32 = .error .unassignedOpcode ∧
  decode 0x0000003E#32 = .error .unassignedOpcode ∧
  decode 0x00000110#32 = .error .reservedBits ∧
  decode 0x01000002#32 = .error .reservedBits

/-- Decoding the word of a well-formed command gives the command back, for every value of its operands (R91, R94). -/
def Obligations.DecodeEncodeRoundTrip : Prop :=
  ∀ i : Instr, i.wellFormed = true → decode (encode i) = .ok i

/-- A word that decodes is the word of its command: no bit is dropped (R91, R94, R95). -/
def Obligations.EncodeOfDecodedWord : Prop :=
  ∀ (w : Word) (i : Instr), decode w = .ok i → encode i = w

/-- R94 by match and mask: a format Z command is its opcode exactly, a format G command has mask 0xFF0000FF and its
operands in bits 15:8 and 23:16, and every other word is illegal. -/
def Obligations.DecodeByMatchAndMask : Prop :=
  ∀ w : Word,
    (decode w = .ok .gfinit ↔ w = 0x01#32) ∧
    (∀ a b : Byte, decode w = .ok (.gfmul a b) ↔
      w &&& 0xFF0000FF#32 = 0x02#32 ∧ a = w.extractLsb' 8 8 ∧ b = w.extractLsb' 16 8) ∧
    (∀ a b : Byte, decode w = .ok (.gfmulf a b) ↔
      w &&& 0xFF0000FF#32 = 0x03#32 ∧ a = w.extractLsb' 8 8 ∧ b = w.extractLsb' 16 8) ∧
    (decode w = .ok .kload ↔ w = 0x10#32) ∧
    (decode w = .ok .kexp ↔ w = 0x11#32) ∧
    (decode w = .ok .encblk ↔ w = 0x12#32) ∧
    (decode w = .ok .hderive ↔ w = 0x20#32) ∧
    (decode w = .ok .ctrinc ↔ w = 0x21#32) ∧
    (decode w = .ok .ghmul ↔ w = 0x22#32) ∧
    (decode w = .ok .aeenc ↔ w = 0x30#32) ∧
    (decode w = .ok .aedec ↔ w = 0x31#32) ∧
    (decode w = .ok .clr ↔ w = 0x3F#32) ∧
    ((∃ e, decode w = .error e) ↔
      w &&& 0xFF0000FF#32 ≠ 0x02#32 ∧ w &&& 0xFF0000FF#32 ≠ 0x03#32 ∧
      w ∉ [0x01#32, 0x10#32, 0x11#32, 0x12#32, 0x20#32, 0x21#32, 0x22#32, 0x30#32, 0x31#32, 0x3F#32])

/-! ### The step, the prologue of commands and the FATAL gate -/

/-- A step runs the decoded command (R92): when the next input is the bus write of a word that decodes to `i`, the step
is `exec i` at the state with the input removed and the response `ok` recorded (the answer is the model's own field,
log 9). The same for the word placed by `withFetchWord` (log 2). -/
def Obligations.StepRunsDecodedCommand : Prop :=
  ∀ (s : State) (w : Word) (i : Instr), decode w = .ok i →
    (∀ rest : List Input, s.inputs = .bus (.write 0x00000#18 .four w) :: rest →
      step s = exec i { s with inputs := rest, answer := some .writeOk }) ∧
    step (s.withFetchWord 32 w.toNat) = exec i { s with answer := some .writeOk }

/-- A word that is no command's word raises CONTRACT (R95, R214): FATAL and RESULT, nothing else. -/
def Obligations.IllegalWordRaisesContract : Prop :=
  ∀ (s : State) (rest : List Input) (w : Word), s.safe →
    s.inputs = .bus (.write 0x00000#18 .four w) :: rest → (∀ i : Instr, encode i ≠ w) →
    step s = .next { s with inputs := rest, answer := some .writeOk, fatal := true, result := .contract }

/-- R214: what `raise CONTRACT` does, and what a host still sees while FATAL is set. Every write, to CMD too, changes
nothing and answers `ok`, a read of STATUS gives its value, every other read gives 0, an illegal access still answers
`error`, and only reset clears FATAL. -/
def Obligations.ContractViolationIsStickyAndGatesThePort : Prop :=
  (∀ s : State, raiseContract s = { s with fatal := true, result := .contract }) ∧
  ∀ (s : State) (rest : List Input), s.fatal = true →
    (∀ (a : Addr) (z : Size) (d : Word), s.inputs = .bus (.write a z d) :: rest →
      (targetAt s.cfg a.toNat z = none → step s = .next { s with inputs := rest, answer := some .error }) ∧
      (targetAt s.cfg a.toNat z ≠ none → step s = .next { s with inputs := rest, answer := some .writeOk })) ∧
    (∀ (a : Addr) (z : Size), s.inputs = .bus (.read a z) :: rest →
      (targetAt s.cfg a.toNat z = none → step s = .next { s with inputs := rest, answer := some .error }) ∧
      (targetAt s.cfg a.toNat z = some (.word .status) →
        step s = .next { s with inputs := rest, answer := some (.readOk (statusWord s)) }) ∧
      (∀ g, targetAt s.cfg a.toNat z = some g → g ≠ .word .status →
        step s = .next { s with inputs := rest, answer := some (.readOk 0#32) })) ∧
    (∀ t : State, step s = .next t → s.inputs.head? ≠ some .reset → t.fatal = true)

/-! ### The bus port (20_memory.md) -/

/-- The address map of R61, element by element, for a BUF_MAX in its range; an address in none of the rows is
unmapped. -/
def Obligations.AddressMapRows : Prop :=
  ∀ (c : Config) (a : Nat), c.wellFormed = true →
    (elementAt c a = some (.word .cmd) ↔ a ≤ 0x00003) ∧
    (elementAt c a = some (.word .status) ↔ 0x00004 ≤ a ∧ a ≤ 0x00007) ∧
    (elementAt c a = some (.word .aadlen) ↔ 0x00008 ≤ a ∧ a ≤ 0x0000B) ∧
    (elementAt c a = some (.word .srclen) ↔ 0x0000C ≤ a ∧ a ≤ 0x0000F) ∧
    (elementAt c a = some (.word .dstlen) ↔ 0x00010 ≤ a ∧ a ≤ 0x00013) ∧
    (elementAt c a = some (.word .gfp) ↔ 0x00014 ≤ a ∧ a ≤ 0x00017) ∧
    (∀ k, elementAt c a = some (.byte (.reg .keyin k)) ↔ a = 0x00020 + k ∧ k ≤ 15) ∧
    (∀ k, elementAt c a = some (.byte (.reg .blkin k)) ↔ a = 0x00030 + k ∧ k ≤ 15) ∧
    (∀ k, elementAt c a = some (.byte (.reg .blkout k)) ↔ a = 0x00040 + k ∧ k ≤ 15) ∧
    (∀ k, elementAt c a = some (.byte (.reg .ghop k)) ↔ a = 0x00050 + k ∧ k ≤ 15) ∧
    (∀ k, elementAt c a = some (.byte (.reg .ctr k)) ↔ a = 0x00060 + k ∧ k ≤ 15) ∧
    (∀ k, elementAt c a = some (.byte (.reg .tagin k)) ↔ a = 0x00070 + k ∧ k ≤ 15) ∧
    (∀ k, elementAt c a = some (.byte (.reg .tagout k)) ↔ a = 0x00080 + k ∧ k ≤ 15) ∧
    (∀ off, elementAt c a = some (.byte (.buf .aad off)) ↔ a = 0x10000 + off ∧ off < c.bufMax) ∧
    (∀ off, elementAt c a = some (.byte (.buf .src off)) ↔ a = 0x20000 + off ∧ off < c.bufMax) ∧
    (∀ off, elementAt c a = some (.byte (.buf .dst off)) ↔ a = 0x30000 + off ∧ off < c.bufMax)

/-- R64, R65: a misaligned 4-byte access, a 1-byte access to a word register and an access any byte of which is
unmapped answer `error` and change nothing (the input is taken and the answer recorded, logs 1, 9); every other access
answers `ok`; and with BUF_MAX in its range an aligned 4-byte access is wholly mapped or wholly unmapped. -/
def Obligations.BadAccessAnswersErrorAndChangesNothing : Prop :=
  ∀ (s : State) (rest : List Input) (a : Addr) (z : Size) (d : Word),
    (badAccess s.cfg a.toNat z →
      (s.inputs = .bus (.read a z) :: rest → step s = .next { s with inputs := rest, answer := some .error }) ∧
      (s.inputs = .bus (.write a z d) :: rest → step s = .next { s with inputs := rest, answer := some .error })) ∧
    (¬ badAccess s.cfg a.toNat z →
      (s.inputs = .bus (.read a z) :: rest → ∃ t v, step s = .next t ∧ t.answer = some (.readOk v)) ∧
      (s.inputs = .bus (.write a z d) :: rest → ∃ t, step s = .next t ∧ t.answer = some .writeOk)) ∧
    (s.cfg.wellFormed = true → a.toNat % 4 = 0 →
      ∀ k < 4, (elementAt s.cfg (a.toNat + k) = none ↔ elementAt s.cfg a.toNat = none))

/-- R67: a read, whatever follows it, changes nothing (but for the input taken and the answer recorded, logs 1, 9), and
the same read repeated gives the same answer; a write other than to CMD, made twice, leaves what it leaves made once; a
write to CMD need not. -/
def Obligations.OnlyCommandWritesHaveSideEffects : Prop :=
  (∀ (s : State) (rest rest' : List Input) (a : Addr) (z : Size), s.inputs = .bus (.read a z) :: rest →
    ∃ r, step s = .next { s with inputs := rest, answer := some r } ∧
      step { s with inputs := .bus (.read a z) :: rest', answer := some r } =
        .next { s with inputs := rest', answer := some r }) ∧
  (∀ (s t : State) (rest : List Input) (a : Addr) (z : Size) (d : Word),
    targetAt s.cfg a.toNat z ≠ some (.word .cmd) →
    s.inputs = .bus (.write a z d) :: .bus (.write a z d) :: rest → step s = .next t →
    step t = .next { t with inputs := rest }) ∧
  (∃ (s t : State) (rest : List Input) (d : Word),
    s.inputs = .bus (.write 0x00000#18 .four d) :: .bus (.write 0x00000#18 .four d) :: rest ∧ step s = .next t ∧
    step t ≠ .next { t with inputs := rest })

/-- R61 to R63: a host write of `n` bytes to BLKIN, GHOP, CTR, TAGIN, AADBUF or SRCBUF. Of the whole state only the
register written, or memory, changes (and the input taken and the answer recorded, logs 1, 9); its bytes are those of the
data lanes, lowest address from data bits 7:0, in the numbering in which the engine reads registers (`blockByte`) and
buffers (`bufferByte`); every other byte of memory is as before. The bytes read back on the port, by either size, and
1-byte reads at every other address answer as before. -/
def Obligations.HostWritesReadBackLittleEndian : Prop :=
  ∀ (s : State) (rest : List Input) (a : Addr) (z : Size) (n : Nat) (d : Word), s.safe → s.cfg.wellFormed = true →
    (z = .one ∧ n = 1) ∨ (z = .four ∧ n = 4 ∧ a.toNat % 4 = 0) →
    (0x30 ≤ a.toNat ∧ a.toNat < 0x40) ∨ (0x50 ≤ a.toNat ∧ a.toNat < 0x80) ∨
      (0x10000 ≤ a.toNat ∧ a.toNat < 0x10000 + s.cfg.bufMax) ∨
      (0x20000 ≤ a.toNat ∧ a.toNat < 0x20000 + s.cfg.bufMax) →
    s.inputs = .bus (.write a z d) :: rest →
    ∃ t, step s = .next t ∧
      t = { s with
        inputs := rest
        answer := some .writeOk
        blkin := if 0x30 ≤ a.toNat ∧ a.toNat < 0x40 then t.blkin else s.blkin
        ghop := if 0x50 ≤ a.toNat ∧ a.toNat < 0x60 then t.ghop else s.ghop
        ctr := if 0x60 ≤ a.toNat ∧ a.toNat < 0x70 then t.ctr else s.ctr
        tagin := if 0x70 ≤ a.toNat ∧ a.toNat < 0x80 then t.tagin else s.tagin
        mem := if 0x10000 ≤ a.toNat then t.mem else s.mem } ∧
      (∀ (old new : Block) (base : Nat),
        (old, new, base) ∈ [(s.blkin, t.blkin, 0x30), (s.ghop, t.ghop, 0x50), (s.ctr, t.ctr, 0x60),
          (s.tagin, t.tagin, 0x70)] →
        ∀ k < 16, blockByte new k =
          if a.toNat ≤ base + k ∧ base + k < a.toNat + n then d.extractLsb' (8 * (base + k - a.toNat)) 8
          else blockByte old k) ∧
      (∀ (b : Space) (base : Nat), (b, base) ∈ [(.aad, 0x10000), (.src, 0x20000)] →
        ∀ off < 0x10000, bufferByte t b off =
          if a.toNat ≤ base + off ∧ base + off < a.toNat + n then d.extractLsb' (8 * (base + off - a.toNat)) 8
          else bufferByte s b off) ∧
      (∀ x : Nat, x < a.toNat ∨ a.toNat + n ≤ x → cellByte t x = cellByte s x) ∧
      busRead t a z = .readOk (if z = .one then (d.extractLsb' 0 8).setWidth 32 else d) ∧
      (∀ k < n, busRead t (a + BitVec.ofNat 18 k) .one = .readOk ((d.extractLsb' (8 * k) 8).setWidth 32)) ∧
      ∀ a' : Addr, a'.toNat < a.toNat ∨ a.toNat + n ≤ a'.toNat → busRead t a' .one = busRead s a' .one

/-- R23, R61 to R63: a host write of one or of four bytes to KEYIN stages those bytes of the key, the one at the lowest
address from data bits 7:0, and changes no other state of the block. -/
def Obligations.KeyinWriteStagesKeyBytes : Prop :=
  ∀ (s : State) (rest : List Input) (a : Addr) (z : Size) (n : Nat) (d : Word), s.safe →
    (z = .one ∧ n = 1) ∨ (z = .four ∧ n = 4 ∧ a.toNat % 4 = 0) →
    0x20 ≤ a.toNat → a.toNat < 0x30 → s.inputs = .bus (.write a z d) :: rest →
    ∃ t, step s = .next t ∧ t = { s with inputs := rest, answer := some .writeOk, keyin := t.keyin } ∧
      ∀ k < 16, blockByte t.keyin k =
        if a.toNat ≤ 0x20 + k ∧ 0x20 + k < a.toNat + n then d.extractLsb' (8 * (0x20 + k - a.toNat)) 8
        else blockByte s.keyin k

/-- R32, R33: any 32-bit value can be written to AADLEN and SRCLEN and reads back; the write changes nothing else. -/
def Obligations.LengthRegistersHoldAnyWord : Prop :=
  ∀ (s : State) (rest : List Input) (d : Word), s.safe →
    (s.inputs = .bus (.write 0x00008#18 .four d) :: rest →
      ∃ t, step s = .next t ∧ t = { s with inputs := rest, answer := some .writeOk, aadlen := d } ∧
        busRead t 0x00008#18 .four = .readOk d) ∧
    (s.inputs = .bus (.write 0x0000C#18 .four d) :: rest →
      ∃ t, step s = .next t ∧ t = { s with inputs := rest, answer := some .writeOk, srclen := d } ∧
        busRead t 0x0000C#18 .four = .readOk d)

/-- R66: a write to STATUS, DSTLEN, GFP, BLKOUT, TAGOUT or DSTBUF answers `ok` and changes nothing; a read of CMD or
KEYIN answers `ok` with data 0; in a read of DSTBUF each byte is judged on its own offset; and while FATAL is set reads
of anything but STATUS give 0 and writes change nothing. -/
def Obligations.AccessRightsOfThePort : Prop :=
  ∀ (s : State) (rest : List Input) (a : Addr) (z : Size) (d : Word) (g : Target), targetAt s.cfg a.toNat z = some g →
    (s.inputs = .bus (.write a z d) :: rest →
      s.fatal = true ∨ (0x04 ≤ a.toNat ∧ a.toNat < 0x08) ∨ (0x10 ≤ a.toNat ∧ a.toNat < 0x18) ∨
        (0x40 ≤ a.toNat ∧ a.toNat < 0x50) ∨ (0x80 ≤ a.toNat ∧ a.toNat < 0x90) ∨ 0x30000 ≤ a.toNat →
      step s = .next { s with inputs := rest, answer := some .writeOk }) ∧
    (a.toNat < 0x04 ∨ (0x20 ≤ a.toNat ∧ a.toNat < 0x30) → busRead s a z = .readOk 0#32) ∧
    (s.safe → 0x30000 ≤ a.toNat → z = .one →
      busRead s a z = .readOk (if a.toNat - 0x30000 < s.dstlen.toNat then (cellByte s a.toNat).setWidth 32 else 0#32)) ∧
    (s.safe → 0x30000 ≤ a.toNat → z = .four →
      ∃ v : Word, busRead s a z = .readOk v ∧ ∀ k < 4, v.extractLsb' (8 * k) 8 =
        if a.toNat + k - 0x30000 < s.dstlen.toNat then cellByte s (a.toNat + k) else 0#8) ∧
    (s.fatal = true → ¬ (0x04 ≤ a.toNat ∧ a.toNat < 0x08) → busRead s a z = .readOk 0#32) ∧
    (0x04 ≤ a.toNat ∧ a.toNat < 0x08 → busRead s a z = .readOk (statusWord s))

/-- R36: the fields of STATUS, its reserved bits read as zero. -/
def Obligations.StatusWordLayout : Prop :=
  ∀ s : State,
    (statusWord s).getLsbD 0 = s.tblReady ∧ (statusWord s).getLsbD 1 = s.keyValid ∧
    (statusWord s).getLsbD 2 = s.rkValid ∧ (statusWord s).getLsbD 3 = s.hValid ∧
    (statusWord s).getLsbD 4 = s.fatal ∧ (statusWord s).extractLsb' 5 3 = 0#3 ∧
    (statusWord s).extractLsb' 8 4 = (match s.result with
      | .ok => 0#4
      | .malformed => 1#4
      | .authFail => 2#4
      | .contract => 3#4) ∧
    (statusWord s).extractLsb' 12 20 = 0#20

/-- What a host cannot read: two states that differ only in KEYIN, KEY, RK, H, GFT and the bytes of DSTBUF at offsets
≥ DSTLEN give the same response to every read (R45, R43, R222). -/
def Obligations.HiddenStateIsNotReadable : Prop :=
  ∀ (s t : State) (a : Addr) (z : Size), s.SameVisible t → busRead s a z = busRead t a z

/-! ### Reset and the whole machine -/

/-- The reset input (R46, R240): every register, flag and valid bit zero, table and buffers unspecified. That unlisted
memory and `GfTable.unspecified` stand for unspecified contents, and that the model's own fields and BUF_MAX stay, is
the model's choice (logs 4, 5, 6, 10). -/
def Obligations.ResetInputGivesResetState : Prop :=
  ∀ (s : State) (rest : List Input), s.inputs = .reset :: rest →
    ∃ t, step s = .next t ∧ statusWord t = 0#32 ∧
      t.aadlen = 0#32 ∧ t.srclen = 0#32 ∧ t.dstlen = 0#32 ∧ t.gfp = 0#8 ∧
      t.keyin = 0#128 ∧ t.key = 0#128 ∧ t.blkin = 0#128 ∧ t.blkout = 0#128 ∧ t.ghop = 0#128 ∧ t.ctr = 0#128 ∧
      t.tagin = 0#128 ∧ t.tagout = 0#128 ∧ t.rk = 0#1408 ∧ t.h = 0#128 ∧
      t.mem = [] ∧ t.gft = .unspecified (s.resets + 1) ∧ t.resets = s.resets + 1 ∧
      t.cfg = s.cfg ∧ t.inputs = rest ∧ t.rng = s.rng ∧ t.draws = s.draws

/-- The invariant holds at reset. -/
def Obligations.ResetStateHasInvariant : Prop := State.reset.Inv

/-- Every step keeps the invariant: the STATUS implications of R36, the table, RK and H as their valid bits say
(R38 to R40), memory canonical and within the buffers, DSTBUF[0..DSTLEN) written. -/
def Obligations.StepKeepsInvariant : Prop :=
  ∀ s t : State, s.Inv → step s = .next t → t.Inv

/-- Every step answers a next state, and so does every command. R244 says that every command terminates, but of AEENC only
under the assumption that the random source answers: that it does is the model's choice (log 3). That a failure, FATAL
among them, is a next state and no fault is the model's choice too (log 7), where R214 advises to treat FATAL as a
fault. -/
def Obligations.MachineNeverStops : Prop :=
  (∀ s : State, ∃ t, step s = .next t) ∧ ∀ (i : Instr) (s : State), ∃ t, exec i s = .next t

/-- R240, R40: reset is the only event that clears FATAL and TBL_READY, and after the table is built it does not change
until reset. -/
def Obligations.OnlyResetClearsFatalAndTable : Prop :=
  ∀ s t : State, step s = .next t → s.inputs.head? ≠ some .reset →
    (s.fatal = true → t.fatal = true) ∧ (s.tblReady = true → t.tblReady = true ∧ t.gft = s.gft)

/-- R24, R181: while a key is loaded it does not change and only CLR and reset unload it; while none is loaded only
KLOAD and CLR and reset write KEY. -/
def Obligations.KeyIsConstantWithinAnInstance : Prop :=
  ∀ s t : State, step s = .next t → s.inputs.head? ≠ some .reset →
    s.inputs.head? ≠ some (.bus (.write 0x00000#18 .four 0x3F#32)) →
    (s.keyValid = true → t.keyValid = true ∧ t.key = s.key) ∧
    (s.inputs.head? ≠ some (.bus (.write 0x00000#18 .four 0x10#32)) → t.keyValid = s.keyValid ∧ t.key = s.key)

/-- R44: AEENC samples the random source exactly once, after all its checks have passed, and no other command samples
it. The counter and the supply are the model's own fields (log 3). -/
def Obligations.OnlyAeencSamplesTheRandomSource : Prop :=
  ∀ (i : Instr) (s t : State), exec i s = .next t →
    ((i = .aeenc ∧ s.safe ∧ s.keyValid = true ∧ s.aadlen.toNat ≤ s.cfg.bufMax ∧
        s.srclen.toNat + 12 ≤ s.cfg.bufMax) → t.draws = s.draws + 1 ∧ t.rng = s.rng.tail) ∧
    (¬ (i = .aeenc ∧ s.safe ∧ s.keyValid = true ∧ s.aadlen.toNat ≤ s.cfg.bufMax ∧
        s.srclen.toNat + 12 ≤ s.cfg.bufMax) → t.draws = s.draws ∧ t.rng = s.rng)

/-- Which commands write which state (the writers named by the commands' own rules and by 10_state.md): everything else
is left alone, in every state. -/
def Obligations.CommandsWriteOnlyTheirState : Prop :=
  ∀ (i : Instr) (s t : State), exec i s = .next t →
    (i ≠ .clr → t.blkin = s.blkin ∧ t.ghop = s.ghop ∧ t.tagin = s.tagin ∧ t.aadlen = s.aadlen ∧
      t.srclen = s.srclen) ∧
    (i ≠ .ctrinc → i ≠ .clr → t.ctr = s.ctr) ∧
    (i ≠ .encblk → i ≠ .ghmul → i ≠ .clr → t.blkout = s.blkout) ∧
    (i ≠ .kload → i ≠ .clr → t.keyin = s.keyin ∧ t.key = s.key ∧ t.keyValid = s.keyValid) ∧
    ((∀ a b, i ≠ .gfmul a b) → (∀ a b, i ≠ .gfmulf a b) → i ≠ .clr → t.gfp = s.gfp) ∧
    (i ≠ .aeenc → i ≠ .aedec → i ≠ .clr → t.dstlen = s.dstlen ∧ t.tagout = s.tagout) ∧
    (i ∉ [.kexp, .encblk, .hderive, .aeenc, .aedec, .clr] → t.rk = s.rk ∧ t.rkValid = s.rkValid) ∧
    (i ∉ [.hderive, .aeenc, .aedec, .clr] → t.h = s.h ∧ t.hValid = s.hValid) ∧
    (i ∈ [.kload, .ctrinc, .ghmul, .clr] → t.gft = s.gft ∧ t.tblReady = s.tblReady) ∧
    (i ∉ [.kload, .kexp, .encblk, .hderive, .aeenc, .aedec] → t.fatal = s.fatal) ∧
    t.cfg = s.cfg ∧ t.inputs = s.inputs ∧ t.answer = s.answer ∧ t.resets = s.resets

/-- The ten commands that store nothing leave every byte of memory as it was. -/
def Obligations.NonAeadCommandsLeaveMemory : Prop :=
  ∀ (i : Instr) (s t : State), i ≠ .aeenc → i ≠ .aedec → exec i s = .next t →
    t.mem = s.mem ∧ ∀ a : Nat, cellByte t a = cellByte s a

/-- R41, R42, R69: no command writes AADBUF or SRCBUF. -/
def Obligations.NoCommandWritesTheInputBuffers : Prop :=
  ∀ (i : Instr) (s t : State), exec i s = .next t → ∀ off < 0x10000,
    bufferByte t .aad off = bufferByte s .aad off ∧ bufferByte t .src off = bufferByte s .src off

/-! ### GFM (40_gf256.md) -/

/-- R114: GFINIT builds the table, and is a no-operation apart from RESULT when it is built. -/
def Obligations.GfinitBuildsTableOnce : Prop :=
  encode .gfinit = 0x00000001#32 ∧
  ∀ s : State, s.safe →
    (s.tblReady = false → exec .gfinit s = .next { s with gft := .complete, tblReady := true, result := .ok }) ∧
    (s.tblReady = true → exec .gfinit s = .next { s with result := .ok })

/-- R115: GFMUL a, b leaves the product in GFP, sets TBL_READY and changes nothing else but the table and RESULT; its
corner cases and its example. -/
def Obligations.GfmulLeavesProduct : Prop :=
  (∀ a b : Byte, encode (.gfmul a b) = 0x02#32 ||| (a.setWidth 32 <<< 8) ||| (b.setWidth 32 <<< 16)) ∧
  (∀ (s : State) (a b : Byte), s.safe → s.tableInv →
    exec (.gfmul a b) s =
      .next { s with gft := .complete, tblReady := true, gfp := gfMulRef a b, result := .ok }) ∧
  (∀ a : Byte, gfMulRef a 0#8 = 0#8 ∧ gfMulRef 0#8 a = 0#8 ∧ gfMulRef a 1#8 = a ∧ gfMulRef 1#8 a = a) ∧
  gfMulRef 0x57#8 0x83#8 = 0xC1#8

/-- R117: GFMULF a, b leaves the same product, and the whole state that GFMUL a, b leaves. -/
def Obligations.GfmulfLeavesSameProduct : Prop :=
  (∀ a b : Byte, encode (.gfmulf a b) = 0x03#32 ||| (a.setWidth 32 <<< 8) ||| (b.setWidth 32 <<< 16)) ∧
  (∀ a b : Byte, a.toNat < 16 → b.toNat < 16 → gfMulFast .complete a b = tableRead .complete a b) ∧
  ∀ (s : State) (a b : Byte), s.safe → s.tableInv →
    exec (.gfmulf a b) s =
      .next { s with gft := .complete, tblReady := true, gfp := gfMulRef a b, result := .ok } ∧
    exec (.gfmulf a b) s = exec (.gfmul a b) s

/-- R110: the exclusive or of bytes is the sum of their polynomials over GF(2), and the byte product is the product of
the polynomials reduced modulo x^8+x^4+x^3+x+1. -/
def Obligations.GfMulIsPolynomialProduct : Prop :=
  ∀ a b : Byte,
    (∑ i ∈ Finset.range 8, if (a ^^^ b).getLsbD i then (Polynomial.X : Polynomial (ZMod 2)) ^ i else 0) =
      (∑ i ∈ Finset.range 8, if a.getLsbD i then (Polynomial.X : Polynomial (ZMod 2)) ^ i else 0) +
        (∑ i ∈ Finset.range 8, if b.getLsbD i then (Polynomial.X : Polynomial (ZMod 2)) ^ i else 0) ∧
    (∑ i ∈ Finset.range 8, if (gfMulRef a b).getLsbD i then (Polynomial.X : Polynomial (ZMod 2)) ^ i else 0) =
      ((∑ i ∈ Finset.range 8, if a.getLsbD i then (Polynomial.X : Polynomial (ZMod 2)) ^ i else 0) *
        (∑ i ∈ Finset.range 8, if b.getLsbD i then (Polynomial.X : Polynomial (ZMod 2)) ^ i else 0)) %ₘ
      (Polynomial.X ^ 8 + Polynomial.X ^ 4 + Polynomial.X ^ 3 + Polynomial.X + 1)

/-- R118: commutativity, fast path equal to direct path, zero and one, distributivity, multiplication by x and x + 1,
and exactly one inverse of every non-zero byte. -/
def Obligations.GfMultiplierLaws : Prop :=
  (∀ a b : Byte, gfMul .complete a b = gfMul .complete b a) ∧
  (∀ a b : Byte, gfMulFast .complete a b = gfMul .complete a b) ∧
  (∀ a : Byte, gfMul .complete a 0#8 = 0#8 ∧ gfMul .complete a 1#8 = a) ∧
  (∀ a b c : Byte, gfMul .complete a (b ^^^ c) = gfMul .complete a b ^^^ gfMul .complete a c) ∧
  (∀ a : Byte, gfMul .complete 2#8 a = (a <<< 1) ^^^ (if a.getLsbD 7 then 0x1B#8 else 0x00#8)) ∧
  (∀ a : Byte, gfMul .complete 3#8 a = gfMul .complete 2#8 a ^^^ a) ∧
  (∀ a : Byte, a ≠ 0#8 → ∃ u : Byte, gfMul .complete a u = 1#8 ∧ ∀ v : Byte, gfMul .complete a v = 1#8 → v = u) ∧
  gfMul .complete 0x53#8 0xCA#8 = 0x01#8

/-! ### BCC (41_block_cipher.md) -/

/-- R132: the S-box is the field inverse followed by the affine map, and a permutation with no fixed point. -/
def Obligations.SboxIsInverseThenAffine : Prop :=
  (∀ v u : Byte, (v = 0#8 → u = 0#8) → (v ≠ 0#8 → gfMul .complete v u = 1#8) →
    sbox v = u ^^^ u.rotateLeft 1 ^^^ u.rotateLeft 2 ^^^ u.rotateLeft 3 ^^^ u.rotateLeft 4 ^^^ 0x63#8) ∧
  (∀ v w : Byte, sbox v = sbox w → v = w) ∧
  (∀ v : Byte, sbox v ≠ v)

/-- R139: words 0 to 3 of the schedule are the key, and each later word is the word 4 positions earlier XORed with the
previous word, rotated, substituted and given its round constant at the multiples of 4. -/
def Obligations.KeyScheduleRecurrence : Prop :=
  ∀ key : Block,
    roundKey (expandKey key) 0 = key ∧
    ∀ i, 4 ≤ i → i ≤ 43 →
      scheduleWord (expandKey key) i = scheduleWord (expandKey key) (i - 4) ^^^
        (if i % 4 = 0 then subWord (rotWord (scheduleWord (expandKey key) (i - 1))) ^^^ (rcon (i / 4) ++ 0#24)
        else scheduleWord (expandKey key) (i - 1))

/-- R134 to R137: the four round transforms byte by byte, n = 4c + r being row r of column c. -/
def Obligations.RoundTransformsByteByByte : Prop :=
  ∀ (s : Block) (rk : Schedule),
    (∀ n < 16, blockByte (subBytes s) n = sbox (blockByte s n)) ∧
    (∀ c < 4, ∀ r < 4, blockByte (shiftRows s) (4 * c + r) = blockByte s (4 * ((c + r) % 4) + r)) ∧
    (∀ c < 4,
      blockByte (mixColumns .complete s) (4 * c) =
        gfMulRef 2#8 (blockByte s (4 * c)) ^^^ gfMulRef 3#8 (blockByte s (4 * c + 1)) ^^^
          blockByte s (4 * c + 2) ^^^ blockByte s (4 * c + 3) ∧
      blockByte (mixColumns .complete s) (4 * c + 1) =
        blockByte s (4 * c) ^^^ gfMulRef 2#8 (blockByte s (4 * c + 1)) ^^^
          gfMulRef 3#8 (blockByte s (4 * c + 2)) ^^^ blockByte s (4 * c + 3) ∧
      blockByte (mixColumns .complete s) (4 * c + 2) =
        blockByte s (4 * c) ^^^ blockByte s (4 * c + 1) ^^^
          gfMulRef 2#8 (blockByte s (4 * c + 2)) ^^^ gfMulRef 3#8 (blockByte s (4 * c + 3)) ∧
      blockByte (mixColumns .complete s) (4 * c + 3) =
        gfMulRef 3#8 (blockByte s (4 * c)) ^^^ blockByte s (4 * c + 1) ^^^
          blockByte s (4 * c + 2) ^^^ gfMulRef 2#8 (blockByte s (4 * c + 3))) ∧
    (∀ r ≤ 10, ∀ n < 16, blockByte (addRoundKey s rk r) n =
      blockByte s n ^^^ rk.extractLsb' (8 * (175 - (16 * r + n))) 8)

/-- R146, R145: the reference ciphertexts of the all-zero key and block, and of the standard's example vector. -/
def Obligations.ReferenceCiphertexts : Prop :=
  encryptBlock .complete 0#128 (expandKey 0#128) = 0x66e94bd4ef8a2c3b884cfa59ca342b2e#128 ∧
  encryptBlock .complete 0x00112233445566778899aabbccddeeff#128
    (expandKey 0x000102030405060708090a0b0c0d0e0f#128) = 0x69c4e0d86a7b0430d8cdb78070b4c55a#128

/-- R142: KLOAD moves KEYIN to KEY and erases it, and raises CONTRACT over a loaded key. -/
def Obligations.KloadTakesStagedKey : Prop :=
  encode .kload = 0x00000010#32 ∧
  ∀ s : State, s.safe →
    (s.keyValid = false →
      exec .kload s = .next { s with key := s.keyin, keyin := 0#128, keyValid := true, result := .ok }) ∧
    (s.keyValid = true → exec .kload s = .next { s with fatal := true, result := .contract })

/-- R144: KEXP leaves RK the schedule of KEY, whether or not it was cached, and raises CONTRACT without a key. -/
def Obligations.KexpExpandsKey : Prop :=
  encode .kexp = 0x00000011#32 ∧
  ∀ s : State, s.safe →
    (s.keyValid = false → exec .kexp s = .next { s with fatal := true, result := .contract }) ∧
    (s.CacheInv → s.keyValid = true →
      exec .kexp s = .next { s with
        gft := .complete, tblReady := true, rk := expandKey s.key, rkValid := true, result := .ok })

/-- R145: ENCBLK leaves the encryption of BLKIN under KEY in BLKOUT, whether or not the schedule was cached, and raises
CONTRACT without a key. -/
def Obligations.EncblkEncryptsBlkin : Prop :=
  encode .encblk = 0x00000012#32 ∧
  ∀ s : State, s.safe →
    (s.keyValid = false → exec .encblk s = .next { s with fatal := true, result := .contract }) ∧
    (s.CacheInv → s.keyValid = true →
      exec .encblk s = .next { s with
        gft := .complete, tblReady := true, rk := expandKey s.key, rkValid := true
        blkout := encryptBlock .complete s.blkin (expandKey s.key), result := .ok })

/-- R213, R217: the five commands that need the key raise CONTRACT without one, whatever else is wrong, and a raise of
CONTRACT changes FATAL and RESULT only. -/
def Obligations.KeylessCommandsRaiseContract : Prop :=
  ∀ (s : State) (i : Instr), s.safe → s.keyValid = false → i ∈ [.kexp, .encblk, .hderive, .aeenc, .aedec] →
    exec i s = .next { s with fatal := true, result := .contract }

/-! ### AEE building blocks (42_ctr_ghash.md) -/

/-- R172: HDERIVE leaves H the encryption of the zero block under KEY, whether or not anything was cached, and raises
CONTRACT without a key. -/
def Obligations.HderiveDerivesSubkey : Prop :=
  encode .hderive = 0x00000020#32 ∧
  ∀ s : State, s.safe →
    (s.keyValid = false → exec .hderive s = .next { s with fatal := true, result := .contract }) ∧
    (s.CacheInv → s.FlagInv → s.keyValid = true →
      exec .hderive s = .next { s with
        gft := .complete, tblReady := true, rk := expandKey s.key, rkValid := true
        h := encryptBlock .complete 0#128 (expandKey s.key), hValid := true, result := .ok })

/-- R162: CTRINC adds one to CTR modulo 2^128 and changes nothing else but RESULT. -/
def Obligations.CtrincAddsOne : Prop :=
  encode .ctrinc = 0x00000021#32 ∧
  ∀ s : State, s.safe → exec .ctrinc s = .next { s with ctr := s.ctr + 1#128, result := .ok }

/-- R161: the increment carries across the whole width. Byte k gains one exactly when every later byte is 0xFF, and the
all-0xFF counter wraps to zero. -/
def Obligations.CounterCarriesAcrossAllBytes : Prop :=
  (∀ (c : Block) (k : Nat), k < 16 →
    ((∀ j, k < j → j < 16 → blockByte c j = 0xFF#8) → blockByte (inc128 c) k = blockByte c k + 1#8) ∧
    (∀ j, k < j → j < 16 → blockByte c j ≠ 0xFF#8 → blockByte (inc128 c) k = blockByte c k)) ∧
  (∀ c : Block, (inc128 c).toNat = (c.toNat + 1) % 2 ^ 128) ∧
  inc128 0xffffffffffffffffffffffffffffffff#128 = 0#128

/-- R167: GHMUL leaves the GHASH product of BLKIN and GHOP in BLKOUT and changes nothing else but RESULT; zero and one
on either side; the example. -/
def Obligations.GhmulLeavesProduct : Prop :=
  encode .ghmul = 0x00000022#32 ∧
  (∀ s : State, s.safe → exec .ghmul s = .next { s with blkout := ghMul s.blkin s.ghop, result := .ok }) ∧
  (∀ v : Block, ghMul v 0#128 = 0#128 ∧ ghMul 0#128 v = 0#128 ∧
    ghMul v 0x80000000000000000000000000000000#128 = v ∧ ghMul 0x80000000000000000000000000000000#128 v = v) ∧
  ghMul 0x0388dace60b6a392f328c2b971b2fe78#128 0x66e94bd4ef8a2c3b884cfa59ca342b2e#128 =
    0x5e2ec746917062882c85b0685353deb7#128

/-- R165: ShiftRight1 byte by byte and bit by bit in the numbering of R14. -/
def Obligations.ShiftRightByBytesAndBits : Prop :=
  ∀ v : Block,
    blockByte (shiftRight1 v) 0 = blockByte v 0 >>> 1 ∧
    (∀ n, 1 ≤ n → n < 16 → blockByte (shiftRight1 v) n =
      (blockByte v n >>> 1) ||| ((blockByte v (n - 1) &&& 1#8) <<< 7)) ∧
    blockBit (shiftRight1 v) 0 = false ∧
    (∀ i < 127, blockBit (shiftRight1 v) (i + 1) = blockBit v i)

/-- R164: GhMul is multiplication of polynomials over GF(2) modulo x^128 + x^7 + x^2 + x + 1, bit i of a block being the
coefficient of x^i. -/
def Obligations.GhMulIsPolynomialProduct : Prop :=
  ∀ x h : Block,
    (∑ i ∈ Finset.range 128, if blockBit (ghMul x h) i then (Polynomial.X : Polynomial (ZMod 2)) ^ i else 0) =
      ((∑ i ∈ Finset.range 128, if blockBit x i then (Polynomial.X : Polynomial (ZMod 2)) ^ i else 0) *
        (∑ i ∈ Finset.range 128, if blockBit h i then (Polynomial.X : Polynomial (ZMod 2)) ^ i else 0)) %ₘ
      (Polynomial.X ^ 128 + Polynomial.X ^ 7 + Polynomial.X ^ 2 + Polynomial.X + 1)

/-- R173 (a) to (e): GhMul is commutative, linear, has zero and one, and is associative. -/
def Obligations.GhMulLaws : Prop :=
  (∀ x h : Block, ghMul x h = ghMul h x) ∧
  (∀ x y h : Block, ghMul (x ^^^ y) h = ghMul x h ^^^ ghMul y h) ∧
  (∀ h : Block, ghMul 0#128 h = 0#128 ∧ ghMul 0x80000000000000000000000000000000#128 h = h) ∧
  (∀ x y h : Block, ghMul (ghMul x y) h = ghMul x (ghMul y h))

/-- R168 to R170: the blocks of GHASH. ceil(n/16) blocks, byte k of block j being byte 16j + k of the string or zero past
its end; the length block holds the two lengths in bits, AAD first; GHASH absorbs from zero the blocks of the AAD, those
of the ciphertext, padded apart, then the length block, and is zero when both are empty. -/
def Obligations.GhashBlocksAndLengths : Prop :=
  (∀ d : List Byte, (blocks16 d).length = (d.length + 15) / 16 ∧
    ∀ j k, k < 16 → (h : j < (blocks16 d).length) → blockByte (blocks16 d)[j] k = d.getD (16 * j + k) 0#8) ∧
  (∀ alen clen, alen < 2 ^ 61 → clen < 2 ^ 61 →
    (lenBlock alen clen).toNat = 8 * alen * 2 ^ 64 + 8 * clen) ∧
  lenBlock 20 33 = 0x00000000000000a00000000000000108#128 ∧
  (∀ (h : Block) (aad c : List Byte), ghash h aad c =
    (blocks16 aad ++ blocks16 c ++ [lenBlock aad.length c.length]).foldl (fun y b => ghMul (y ^^^ b) h) 0#128) ∧
  ∀ h : Block, ghash h [] [] = 0#128

/-- R160, R163: byte n of the output is byte n of the data XORed with byte n mod 16 of the encryption of
IV ‖ 00 00 00 00 plus n / 16, so that the first chunk uses that block itself; the output is as long as the data; and the
transform is its own inverse. -/
def Obligations.CtrXorIsCounterMode : Prop :=
  (∀ iv : Iv, counterBlock0 iv = iv ++ 0#32) ∧
  ∀ (t : GfTable) (rk : Schedule) (iv : Iv) (d : List Byte),
    (ctrXor t rk iv d).length = d.length ∧
    (∀ n < d.length, (ctrXor t rk iv d).getD n 0#8 = d.getD n 0#8 ^^^
      blockByte (encryptBlock t ((iv ++ 0#32) + BitVec.ofNat 128 (n / 16)) rk) (n % 16)) ∧
    ctrXor t rk iv (ctrXor t rk iv d) = d

/-- The consequence that R173 draws: under the zero subkey every tag is zero. -/
def Obligations.GhashUnderZeroSubkeyIsZero : Prop :=
  ∀ aad c : List Byte, ghash 0#128 aad c = 0#128

/-! ### AEE (43_aead.md) -/

/-- R185: opening what was sealed gives the plaintext back. -/
def Obligations.OpenOfSealGivesPlaintext : Prop :=
  ∀ (g : GfTable) (rk : Schedule) (h : Block) (iv : Iv) (p aad : List Byte),
    openMessage g rk h (sealMessage g rk h iv p aad).1 aad (sealMessage g rk h iv p aad).2 = some p

/-- R186: AEENC. CONTRACT for no key or a length over capacity, with nothing but STATUS changed; else the caches, one
draw of the random source, the envelope IV ‖ ciphertext in DSTBUF[0..SRCLEN+12), its length and the tag, and everything
else as before, every other byte of memory too. The draw is whatever the source delivers (log 3). -/
def Obligations.AeencSealsSrcbuf : Prop :=
  encode .aeenc = 0x00000030#32 ∧
  ∀ s : State, s.Inv → s.safe →
    (s.keyValid = false ∨ s.cfg.bufMax < s.aadlen.toNat ∨ s.cfg.bufMax - 12 < s.srclen.toNat →
      exec .aeenc s = .next { s with fatal := true, result := .contract }) ∧
    (s.keyValid = true → s.aadlen.toNat ≤ s.cfg.bufMax → s.srclen.toNat ≤ s.cfg.bufMax - 12 →
      ∃ t rk h c, exec .aeenc s = .next t ∧
        rk = expandKey s.key ∧ h = encryptBlock .complete 0#128 rk ∧
        c = ctrXor .complete rk (nextDraw s) (memRead s .src 0 s.srclen.toNat) ∧
        t = { s with
          gft := .complete, tblReady := true, rk := rk, rkValid := true, h := h, hValid := true
          dstlen := t.dstlen, tagout := ghash h (memRead s .aad 0 s.aadlen.toNat) c
          mem := t.mem, rng := s.rng.tail, draws := s.draws + 1, result := .ok } ∧
        t.dstlen.toNat = s.srclen.toNat + 12 ∧
        memRead t .dst 0 (s.srclen.toNat + 12) = ivBytes (nextDraw s) ++ c ∧
        ∀ a : Nat, a < spaceBase .dst ∨ spaceBase .dst + (s.srclen.toNat + 12) ≤ a → cellByte t a = cellByte s a)

/-- R190: AEDEC. CONTRACT for no key or a length over capacity, MALFORMED for an envelope shorter than the IV, AUTH_FAIL
for a tag that does not match, each changing only what it names; else the plaintext in DSTBUF[0..SRCLEN-12), its length,
TAGOUT zero, and everything else as before, every other byte of memory too. -/
def Obligations.AedecOpensSrcbuf : Prop :=
  encode .aedec = 0x00000031#32 ∧
  ∀ s : State, s.Inv → s.safe →
    (s.keyValid = false ∨ s.cfg.bufMax < s.aadlen.toNat ∨ s.cfg.bufMax < s.srclen.toNat →
      exec .aedec s = .next { s with fatal := true, result := .contract }) ∧
    (s.keyValid = true → s.aadlen.toNat ≤ s.cfg.bufMax → s.srclen.toNat < 12 →
      exec .aedec s = .next { s with dstlen := 0#32, tagout := 0#128, result := .malformed }) ∧
    (s.keyValid = true → s.aadlen.toNat ≤ s.cfg.bufMax → 12 ≤ s.srclen.toNat → s.srclen.toNat ≤ s.cfg.bufMax →
      ∃ rk h env aad, rk = expandKey s.key ∧ h = encryptBlock .complete 0#128 rk ∧
        env = memRead s .src 0 s.srclen.toNat ∧ aad = memRead s .aad 0 s.aadlen.toNat ∧
        (ghash h aad (env.drop 12) ≠ s.tagin →
          exec .aedec s = .next { s with
            gft := .complete, tblReady := true, rk := rk, rkValid := true, h := h, hValid := true
            dstlen := 0#32, tagout := 0#128, result := .authFail }) ∧
        (ghash h aad (env.drop 12) = s.tagin →
          ∃ t, exec .aedec s = .next t ∧
            t = { s with
              gft := .complete, tblReady := true, rk := rk, rkValid := true, h := h, hValid := true
              dstlen := t.dstlen, tagout := 0#128, mem := t.mem, result := .ok } ∧
            t.dstlen.toNat = s.srclen.toNat - 12 ∧
            memRead t .dst 0 (s.srclen.toNat - 12) =
              ctrXor .complete rk (ivOfBytes (env.take 12)) (env.drop 12) ∧
            ∀ a : Nat, a < spaceBase .dst ∨ spaceBase .dst + (s.srclen.toNat - 12) ≤ a →
              cellByte t a = cellByte s a))

/-- No release on failure (R192, with R216 and R43): when AEDEC ends in AUTH_FAIL, DSTLEN is 0, every host read of DSTBUF
gives 0 and so does every read of TAGOUT; and AEDEC leaves TAGOUT zero in every outcome except CONTRACT. That no byte of
memory has changed, the hidden cells of DSTBUF among them, is the model's choice (log 5). -/
def Obligations.NoReleaseOnAuthFailure : Prop :=
  ∀ s t : State, s.safe → exec .aedec s = .next t →
    (t.result = .authFail → t.mem = s.mem ∧ t.dstlen = 0#32 ∧
      ∀ (a : Addr) (z : Size), 0x30000 ≤ a.toNat ∨ (0x80 ≤ a.toNat ∧ a.toNat < 0x90) →
        busRead t a z = .error ∨ busRead t a z = .readOk 0#32) ∧
    (t.result ≠ .contract → t.tagout = 0#128)

/-- R194 (b): where AEDEC accepts a tag it rejects every other tag on the same inputs, and releases nothing. That the
hidden cells of DSTBUF stay as they were is the model's choice (log 5). -/
def Obligations.EveryOtherTagIsRejected : Prop :=
  ∀ (s t : State) (g : Block), s.Inv → s.safe → exec .aedec s = .next t → t.result = .ok → g ≠ s.tagin →
    ∃ u, exec .aedec { s with tagin := g } = .next u ∧ u.result = .authFail ∧ u.dstlen = 0#32 ∧ u.mem = s.mem

/-- R194 (a): the tag does not cover the IV. Where AEDEC accepts an envelope it accepts every envelope that differs from
it in bytes 0..11 only. -/
def Obligations.TagDoesNotCoverTheIv : Prop :=
  ∀ (s t s' : State), s.Inv → s'.Inv → s.safe → exec .aedec s = .next t → t.result = .ok →
    s' = { s with mem := s'.mem } →
    (∀ off < 0x10000, bufferByte s' .aad off = bufferByte s .aad off) →
    (∀ off, 12 ≤ off → off < 0x10000 → bufferByte s' .src off = bufferByte s .src off) →
    ∃ u, exec .aedec s' = .next u ∧ u.result = .ok ∧ u.dstlen = t.dstlen

/-- R193 (a): an AEENC that ends in OK, then the envelope, its length and the tag carried back by the host with the AAD
unchanged, then AEDEC under the same key, ends in OK with the plaintext in DSTBUF. -/
def Obligations.AeencThenAedecGivesPlaintextBack : Prop :=
  ∀ s t u : State, s.Inv → s.safe → exec .aeenc s = .next t → t.result = .ok →
    u.Inv → u.safe → u.keyValid = true → u.key = s.key → u.cfg = s.cfg →
    u.srclen = t.dstlen → memRead u .src 0 t.dstlen.toNat = memRead t .dst 0 t.dstlen.toNat →
    u.tagin = t.tagout →
    u.aadlen = s.aadlen → memRead u .aad 0 s.aadlen.toNat = memRead s .aad 0 s.aadlen.toNat →
    ∃ v, exec .aedec u = .next v ∧ v.result = .ok ∧ v.dstlen = s.srclen ∧
      memRead v .dst 0 s.srclen.toNat = memRead s .src 0 s.srclen.toNat

/-- R195: CLR erases the key, the caches, the registers and the lengths. What it leaves is the state after reset except
for TBL_READY, GFT and the buffers (and BUF_MAX and the model's own fields, logs 1, 3, 4, 5, 9). In FATAL it does
nothing. -/
def Obligations.ClrLeavesResetStateButTableAndBuffers : Prop :=
  encode .clr = 0x0000003F#32 ∧
  ∀ s : State,
    (s.safe → exec .clr s = .next { State.reset with
      tblReady := s.tblReady, gft := s.gft, mem := s.mem
      cfg := s.cfg, inputs := s.inputs, answer := s.answer, rng := s.rng, draws := s.draws, resets := s.resets }) ∧
    (s.fatal = true → exec .clr s = .next s)

/-! ### What the port reads -/

/-- R25 to R34, R41, R42, R61 to R63: while FATAL is clear a 4-byte read of AADLEN, SRCLEN, DSTLEN or GFP gives that
register, GFP with bits 31:8 zero; a read of BLKIN, BLKOUT, GHOP, CTR, TAGIN or TAGOUT, of one byte or of four, gives the
bytes of that register at its own addresses, the lowest in data bits 7:0; and so for AADBUF and SRCBUF. -/
def Obligations.PortReadsGiveStoredValues : Prop :=
  ∀ s : State, s.safe →
    busRead s 0x00008#18 .four = .readOk s.aadlen ∧
    busRead s 0x0000C#18 .four = .readOk s.srclen ∧
    busRead s 0x00010#18 .four = .readOk s.dstlen ∧
    busRead s 0x00014#18 .four = .readOk (s.gfp.setWidth 32) ∧
    (∀ (v : Block) (base : Nat),
      (v, base) ∈ [(s.blkin, 0x30), (s.blkout, 0x40), (s.ghop, 0x50), (s.ctr, 0x60), (s.tagin, 0x70), (s.tagout, 0x80)] →
      (∀ k < 16, busRead s (BitVec.ofNat 18 (base + k)) .one = .readOk ((blockByte v k).setWidth 32)) ∧
      ∀ j < 4, ∃ w : Word, busRead s (BitVec.ofNat 18 (base + 4 * j)) .four = .readOk w ∧
        ∀ k < 4, w.extractLsb' (8 * k) 8 = blockByte v (4 * j + k)) ∧
    (s.cfg.wellFormed = true →
      ∀ (b : Space) (base : Nat), (b, base) ∈ [(.aad, 0x10000), (.src, 0x20000)] → ∀ off < s.cfg.bufMax,
        busRead s (BitVec.ofNat 18 (base + off)) .one = .readOk ((bufferByte s b off).setWidth 32) ∧
        (off % 4 = 0 → ∃ w : Word, busRead s (BitVec.ofNat 18 (base + off)) .four = .readOk w ∧
          ∀ k < 4, w.extractLsb' (8 * k) 8 = bufferByte s b (off + k)))
end

