-- ==== Sys2Proof/Laws/State.lean ====
section
/-! SUPPORT. The state under the named updates: one lemma per field per update, so that no proof unfolds a record
update. -/

namespace Sys2Proof.Machine

/-! `complete` -/

@[simp] theorem complete_tblReady (s : State) : (complete s).tblReady = s.tblReady := rfl
@[simp] theorem complete_keyValid (s : State) : (complete s).keyValid = s.keyValid := rfl
@[simp] theorem complete_rkValid (s : State) : (complete s).rkValid = s.rkValid := rfl
@[simp] theorem complete_hValid (s : State) : (complete s).hValid = s.hValid := rfl
@[simp] theorem complete_fatal (s : State) : (complete s).fatal = s.fatal := rfl
@[simp] theorem complete_result (s : State) : (complete s).result = .ok := rfl
@[simp] theorem complete_aadlen (s : State) : (complete s).aadlen = s.aadlen := rfl
@[simp] theorem complete_srclen (s : State) : (complete s).srclen = s.srclen := rfl
@[simp] theorem complete_dstlen (s : State) : (complete s).dstlen = s.dstlen := rfl
@[simp] theorem complete_gfp (s : State) : (complete s).gfp = s.gfp := rfl
@[simp] theorem complete_keyin (s : State) : (complete s).keyin = s.keyin := rfl
@[simp] theorem complete_key (s : State) : (complete s).key = s.key := rfl
@[simp] theorem complete_blkin (s : State) : (complete s).blkin = s.blkin := rfl
@[simp] theorem complete_blkout (s : State) : (complete s).blkout = s.blkout := rfl
@[simp] theorem complete_ghop (s : State) : (complete s).ghop = s.ghop := rfl
@[simp] theorem complete_ctr (s : State) : (complete s).ctr = s.ctr := rfl
@[simp] theorem complete_tagin (s : State) : (complete s).tagin = s.tagin := rfl
@[simp] theorem complete_tagout (s : State) : (complete s).tagout = s.tagout := rfl
@[simp] theorem complete_rk (s : State) : (complete s).rk = s.rk := rfl
@[simp] theorem complete_h (s : State) : (complete s).h = s.h := rfl
@[simp] theorem complete_gft (s : State) : (complete s).gft = s.gft := rfl
@[simp] theorem complete_mem (s : State) : (complete s).mem = s.mem := rfl
@[simp] theorem complete_cfg (s : State) : (complete s).cfg = s.cfg := rfl
@[simp] theorem complete_inputs (s : State) : (complete s).inputs = s.inputs := rfl
@[simp] theorem complete_answer (s : State) : (complete s).answer = s.answer := rfl
@[simp] theorem complete_rng (s : State) : (complete s).rng = s.rng := rfl
@[simp] theorem complete_draws (s : State) : (complete s).draws = s.draws := rfl
@[simp] theorem complete_resets (s : State) : (complete s).resets = s.resets := rfl

/-! `raiseContract` -/

@[simp] theorem raiseContract_tblReady (s : State) : (raiseContract s).tblReady = s.tblReady := rfl
@[simp] theorem raiseContract_keyValid (s : State) : (raiseContract s).keyValid = s.keyValid := rfl
@[simp] theorem raiseContract_rkValid (s : State) : (raiseContract s).rkValid = s.rkValid := rfl
@[simp] theorem raiseContract_hValid (s : State) : (raiseContract s).hValid = s.hValid := rfl
@[simp] theorem raiseContract_fatal (s : State) : (raiseContract s).fatal = true := rfl
@[simp] theorem raiseContract_result (s : State) : (raiseContract s).result = .contract := rfl
@[simp] theorem raiseContract_aadlen (s : State) : (raiseContract s).aadlen = s.aadlen := rfl
@[simp] theorem raiseContract_srclen (s : State) : (raiseContract s).srclen = s.srclen := rfl
@[simp] theorem raiseContract_dstlen (s : State) : (raiseContract s).dstlen = s.dstlen := rfl
@[simp] theorem raiseContract_gfp (s : State) : (raiseContract s).gfp = s.gfp := rfl
@[simp] theorem raiseContract_keyin (s : State) : (raiseContract s).keyin = s.keyin := rfl
@[simp] theorem raiseContract_key (s : State) : (raiseContract s).key = s.key := rfl
@[simp] theorem raiseContract_blkin (s : State) : (raiseContract s).blkin = s.blkin := rfl
@[simp] theorem raiseContract_blkout (s : State) : (raiseContract s).blkout = s.blkout := rfl
@[simp] theorem raiseContract_ghop (s : State) : (raiseContract s).ghop = s.ghop := rfl
@[simp] theorem raiseContract_ctr (s : State) : (raiseContract s).ctr = s.ctr := rfl
@[simp] theorem raiseContract_tagin (s : State) : (raiseContract s).tagin = s.tagin := rfl
@[simp] theorem raiseContract_tagout (s : State) : (raiseContract s).tagout = s.tagout := rfl
@[simp] theorem raiseContract_rk (s : State) : (raiseContract s).rk = s.rk := rfl
@[simp] theorem raiseContract_h (s : State) : (raiseContract s).h = s.h := rfl
@[simp] theorem raiseContract_gft (s : State) : (raiseContract s).gft = s.gft := rfl
@[simp] theorem raiseContract_mem (s : State) : (raiseContract s).mem = s.mem := rfl
@[simp] theorem raiseContract_cfg (s : State) : (raiseContract s).cfg = s.cfg := rfl
@[simp] theorem raiseContract_inputs (s : State) : (raiseContract s).inputs = s.inputs := rfl
@[simp] theorem raiseContract_answer (s : State) : (raiseContract s).answer = s.answer := rfl
@[simp] theorem raiseContract_rng (s : State) : (raiseContract s).rng = s.rng := rfl
@[simp] theorem raiseContract_draws (s : State) : (raiseContract s).draws = s.draws := rfl
@[simp] theorem raiseContract_resets (s : State) : (raiseContract s).resets = s.resets := rfl

/-! `raiseMalformed` -/

@[simp] theorem raiseMalformed_tblReady (s : State) : (raiseMalformed s).tblReady = s.tblReady := rfl
@[simp] theorem raiseMalformed_keyValid (s : State) : (raiseMalformed s).keyValid = s.keyValid := rfl
@[simp] theorem raiseMalformed_rkValid (s : State) : (raiseMalformed s).rkValid = s.rkValid := rfl
@[simp] theorem raiseMalformed_hValid (s : State) : (raiseMalformed s).hValid = s.hValid := rfl
@[simp] theorem raiseMalformed_fatal (s : State) : (raiseMalformed s).fatal = s.fatal := rfl
@[simp] theorem raiseMalformed_result (s : State) : (raiseMalformed s).result = .malformed := rfl
@[simp] theorem raiseMalformed_aadlen (s : State) : (raiseMalformed s).aadlen = s.aadlen := rfl
@[simp] theorem raiseMalformed_srclen (s : State) : (raiseMalformed s).srclen = s.srclen := rfl
@[simp] theorem raiseMalformed_dstlen (s : State) : (raiseMalformed s).dstlen = 0#32 := rfl
@[simp] theorem raiseMalformed_gfp (s : State) : (raiseMalformed s).gfp = s.gfp := rfl
@[simp] theorem raiseMalformed_keyin (s : State) : (raiseMalformed s).keyin = s.keyin := rfl
@[simp] theorem raiseMalformed_key (s : State) : (raiseMalformed s).key = s.key := rfl
@[simp] theorem raiseMalformed_blkin (s : State) : (raiseMalformed s).blkin = s.blkin := rfl
@[simp] theorem raiseMalformed_blkout (s : State) : (raiseMalformed s).blkout = s.blkout := rfl
@[simp] theorem raiseMalformed_ghop (s : State) : (raiseMalformed s).ghop = s.ghop := rfl
@[simp] theorem raiseMalformed_ctr (s : State) : (raiseMalformed s).ctr = s.ctr := rfl
@[simp] theorem raiseMalformed_tagin (s : State) : (raiseMalformed s).tagin = s.tagin := rfl
@[simp] theorem raiseMalformed_tagout (s : State) : (raiseMalformed s).tagout = 0#128 := rfl
@[simp] theorem raiseMalformed_rk (s : State) : (raiseMalformed s).rk = s.rk := rfl
@[simp] theorem raiseMalformed_h (s : State) : (raiseMalformed s).h = s.h := rfl
@[simp] theorem raiseMalformed_gft (s : State) : (raiseMalformed s).gft = s.gft := rfl
@[simp] theorem raiseMalformed_mem (s : State) : (raiseMalformed s).mem = s.mem := rfl
@[simp] theorem raiseMalformed_cfg (s : State) : (raiseMalformed s).cfg = s.cfg := rfl
@[simp] theorem raiseMalformed_inputs (s : State) : (raiseMalformed s).inputs = s.inputs := rfl
@[simp] theorem raiseMalformed_answer (s : State) : (raiseMalformed s).answer = s.answer := rfl
@[simp] theorem raiseMalformed_rng (s : State) : (raiseMalformed s).rng = s.rng := rfl
@[simp] theorem raiseMalformed_draws (s : State) : (raiseMalformed s).draws = s.draws := rfl
@[simp] theorem raiseMalformed_resets (s : State) : (raiseMalformed s).resets = s.resets := rfl

/-! `raiseAuthFail` -/

@[simp] theorem raiseAuthFail_tblReady (s : State) : (raiseAuthFail s).tblReady = s.tblReady := rfl
@[simp] theorem raiseAuthFail_keyValid (s : State) : (raiseAuthFail s).keyValid = s.keyValid := rfl
@[simp] theorem raiseAuthFail_rkValid (s : State) : (raiseAuthFail s).rkValid = s.rkValid := rfl
@[simp] theorem raiseAuthFail_hValid (s : State) : (raiseAuthFail s).hValid = s.hValid := rfl
@[simp] theorem raiseAuthFail_fatal (s : State) : (raiseAuthFail s).fatal = s.fatal := rfl
@[simp] theorem raiseAuthFail_result (s : State) : (raiseAuthFail s).result = .authFail := rfl
@[simp] theorem raiseAuthFail_aadlen (s : State) : (raiseAuthFail s).aadlen = s.aadlen := rfl
@[simp] theorem raiseAuthFail_srclen (s : State) : (raiseAuthFail s).srclen = s.srclen := rfl
@[simp] theorem raiseAuthFail_dstlen (s : State) : (raiseAuthFail s).dstlen = 0#32 := rfl
@[simp] theorem raiseAuthFail_gfp (s : State) : (raiseAuthFail s).gfp = s.gfp := rfl
@[simp] theorem raiseAuthFail_keyin (s : State) : (raiseAuthFail s).keyin = s.keyin := rfl
@[simp] theorem raiseAuthFail_key (s : State) : (raiseAuthFail s).key = s.key := rfl
@[simp] theorem raiseAuthFail_blkin (s : State) : (raiseAuthFail s).blkin = s.blkin := rfl
@[simp] theorem raiseAuthFail_blkout (s : State) : (raiseAuthFail s).blkout = s.blkout := rfl
@[simp] theorem raiseAuthFail_ghop (s : State) : (raiseAuthFail s).ghop = s.ghop := rfl
@[simp] theorem raiseAuthFail_ctr (s : State) : (raiseAuthFail s).ctr = s.ctr := rfl
@[simp] theorem raiseAuthFail_tagin (s : State) : (raiseAuthFail s).tagin = s.tagin := rfl
@[simp] theorem raiseAuthFail_tagout (s : State) : (raiseAuthFail s).tagout = 0#128 := rfl
@[simp] theorem raiseAuthFail_rk (s : State) : (raiseAuthFail s).rk = s.rk := rfl
@[simp] theorem raiseAuthFail_h (s : State) : (raiseAuthFail s).h = s.h := rfl
@[simp] theorem raiseAuthFail_gft (s : State) : (raiseAuthFail s).gft = s.gft := rfl
@[simp] theorem raiseAuthFail_mem (s : State) : (raiseAuthFail s).mem = s.mem := rfl
@[simp] theorem raiseAuthFail_cfg (s : State) : (raiseAuthFail s).cfg = s.cfg := rfl
@[simp] theorem raiseAuthFail_inputs (s : State) : (raiseAuthFail s).inputs = s.inputs := rfl
@[simp] theorem raiseAuthFail_answer (s : State) : (raiseAuthFail s).answer = s.answer := rfl
@[simp] theorem raiseAuthFail_rng (s : State) : (raiseAuthFail s).rng = s.rng := rfl
@[simp] theorem raiseAuthFail_draws (s : State) : (raiseAuthFail s).draws = s.draws := rfl
@[simp] theorem raiseAuthFail_resets (s : State) : (raiseAuthFail s).resets = s.resets := rfl

/-! `consumeDraw` -/

@[simp] theorem consumeDraw_tblReady (s : State) : (consumeDraw s).tblReady = s.tblReady := rfl
@[simp] theorem consumeDraw_keyValid (s : State) : (consumeDraw s).keyValid = s.keyValid := rfl
@[simp] theorem consumeDraw_rkValid (s : State) : (consumeDraw s).rkValid = s.rkValid := rfl
@[simp] theorem consumeDraw_hValid (s : State) : (consumeDraw s).hValid = s.hValid := rfl
@[simp] theorem consumeDraw_fatal (s : State) : (consumeDraw s).fatal = s.fatal := rfl
@[simp] theorem consumeDraw_result (s : State) : (consumeDraw s).result = s.result := rfl
@[simp] theorem consumeDraw_aadlen (s : State) : (consumeDraw s).aadlen = s.aadlen := rfl
@[simp] theorem consumeDraw_srclen (s : State) : (consumeDraw s).srclen = s.srclen := rfl
@[simp] theorem consumeDraw_dstlen (s : State) : (consumeDraw s).dstlen = s.dstlen := rfl
@[simp] theorem consumeDraw_gfp (s : State) : (consumeDraw s).gfp = s.gfp := rfl
@[simp] theorem consumeDraw_keyin (s : State) : (consumeDraw s).keyin = s.keyin := rfl
@[simp] theorem consumeDraw_key (s : State) : (consumeDraw s).key = s.key := rfl
@[simp] theorem consumeDraw_blkin (s : State) : (consumeDraw s).blkin = s.blkin := rfl
@[simp] theorem consumeDraw_blkout (s : State) : (consumeDraw s).blkout = s.blkout := rfl
@[simp] theorem consumeDraw_ghop (s : State) : (consumeDraw s).ghop = s.ghop := rfl
@[simp] theorem consumeDraw_ctr (s : State) : (consumeDraw s).ctr = s.ctr := rfl
@[simp] theorem consumeDraw_tagin (s : State) : (consumeDraw s).tagin = s.tagin := rfl
@[simp] theorem consumeDraw_tagout (s : State) : (consumeDraw s).tagout = s.tagout := rfl
@[simp] theorem consumeDraw_rk (s : State) : (consumeDraw s).rk = s.rk := rfl
@[simp] theorem consumeDraw_h (s : State) : (consumeDraw s).h = s.h := rfl
@[simp] theorem consumeDraw_gft (s : State) : (consumeDraw s).gft = s.gft := rfl
@[simp] theorem consumeDraw_mem (s : State) : (consumeDraw s).mem = s.mem := rfl
@[simp] theorem consumeDraw_cfg (s : State) : (consumeDraw s).cfg = s.cfg := rfl
@[simp] theorem consumeDraw_inputs (s : State) : (consumeDraw s).inputs = s.inputs := rfl
@[simp] theorem consumeDraw_answer (s : State) : (consumeDraw s).answer = s.answer := rfl
@[simp] theorem consumeDraw_rng (s : State) : (consumeDraw s).rng = s.rng.tail := rfl
@[simp] theorem consumeDraw_draws (s : State) : (consumeDraw s).draws = s.draws + 1 := rfl
@[simp] theorem consumeDraw_resets (s : State) : (consumeDraw s).resets = s.resets := rfl

/-! `answered` -/

@[simp] theorem answered_tblReady (s : State) (rest : List Input) (r : Option Response) : (answered s rest r).tblReady = s.tblReady := rfl
@[simp] theorem answered_keyValid (s : State) (rest : List Input) (r : Option Response) : (answered s rest r).keyValid = s.keyValid := rfl
@[simp] theorem answered_rkValid (s : State) (rest : List Input) (r : Option Response) : (answered s rest r).rkValid = s.rkValid := rfl
@[simp] theorem answered_hValid (s : State) (rest : List Input) (r : Option Response) : (answered s rest r).hValid = s.hValid := rfl
@[simp] theorem answered_fatal (s : State) (rest : List Input) (r : Option Response) : (answered s rest r).fatal = s.fatal := rfl
@[simp] theorem answered_result (s : State) (rest : List Input) (r : Option Response) : (answered s rest r).result = s.result := rfl
@[simp] theorem answered_aadlen (s : State) (rest : List Input) (r : Option Response) : (answered s rest r).aadlen = s.aadlen := rfl
@[simp] theorem answered_srclen (s : State) (rest : List Input) (r : Option Response) : (answered s rest r).srclen = s.srclen := rfl
@[simp] theorem answered_dstlen (s : State) (rest : List Input) (r : Option Response) : (answered s rest r).dstlen = s.dstlen := rfl
@[simp] theorem answered_gfp (s : State) (rest : List Input) (r : Option Response) : (answered s rest r).gfp = s.gfp := rfl
@[simp] theorem answered_keyin (s : State) (rest : List Input) (r : Option Response) : (answered s rest r).keyin = s.keyin := rfl
@[simp] theorem answered_key (s : State) (rest : List Input) (r : Option Response) : (answered s rest r).key = s.key := rfl
@[simp] theorem answered_blkin (s : State) (rest : List Input) (r : Option Response) : (answered s rest r).blkin = s.blkin := rfl
@[simp] theorem answered_blkout (s : State) (rest : List Input) (r : Option Response) : (answered s rest r).blkout = s.blkout := rfl
@[simp] theorem answered_ghop (s : State) (rest : List Input) (r : Option Response) : (answered s rest r).ghop = s.ghop := rfl
@[simp] theorem answered_ctr (s : State) (rest : List Input) (r : Option Response) : (answered s rest r).ctr = s.ctr := rfl
@[simp] theorem answered_tagin (s : State) (rest : List Input) (r : Option Response) : (answered s rest r).tagin = s.tagin := rfl
@[simp] theorem answered_tagout (s : State) (rest : List Input) (r : Option Response) : (answered s rest r).tagout = s.tagout := rfl
@[simp] theorem answered_rk (s : State) (rest : List Input) (r : Option Response) : (answered s rest r).rk = s.rk := rfl
@[simp] theorem answered_h (s : State) (rest : List Input) (r : Option Response) : (answered s rest r).h = s.h := rfl
@[simp] theorem answered_gft (s : State) (rest : List Input) (r : Option Response) : (answered s rest r).gft = s.gft := rfl
@[simp] theorem answered_mem (s : State) (rest : List Input) (r : Option Response) : (answered s rest r).mem = s.mem := rfl
@[simp] theorem answered_cfg (s : State) (rest : List Input) (r : Option Response) : (answered s rest r).cfg = s.cfg := rfl
@[simp] theorem answered_inputs (s : State) (rest : List Input) (r : Option Response) : (answered s rest r).inputs = rest := rfl
@[simp] theorem answered_answer (s : State) (rest : List Input) (r : Option Response) : (answered s rest r).answer = r := rfl
@[simp] theorem answered_rng (s : State) (rest : List Input) (r : Option Response) : (answered s rest r).rng = s.rng := rfl
@[simp] theorem answered_draws (s : State) (rest : List Input) (r : Option Response) : (answered s rest r).draws = s.draws := rfl
@[simp] theorem answered_resets (s : State) (rest : List Input) (r : Option Response) : (answered s rest r).resets = s.resets := rfl

/-! `memWrite` -/

@[simp] theorem memWrite_tblReady (s : State) (b : Space) (off : Nat) (v : List Byte) : (memWrite s b off v).tblReady = s.tblReady := rfl
@[simp] theorem memWrite_keyValid (s : State) (b : Space) (off : Nat) (v : List Byte) : (memWrite s b off v).keyValid = s.keyValid := rfl
@[simp] theorem memWrite_rkValid (s : State) (b : Space) (off : Nat) (v : List Byte) : (memWrite s b off v).rkValid = s.rkValid := rfl
@[simp] theorem memWrite_hValid (s : State) (b : Space) (off : Nat) (v : List Byte) : (memWrite s b off v).hValid = s.hValid := rfl
@[simp] theorem memWrite_fatal (s : State) (b : Space) (off : Nat) (v : List Byte) : (memWrite s b off v).fatal = s.fatal := rfl
@[simp] theorem memWrite_result (s : State) (b : Space) (off : Nat) (v : List Byte) : (memWrite s b off v).result = s.result := rfl
@[simp] theorem memWrite_aadlen (s : State) (b : Space) (off : Nat) (v : List Byte) : (memWrite s b off v).aadlen = s.aadlen := rfl
@[simp] theorem memWrite_srclen (s : State) (b : Space) (off : Nat) (v : List Byte) : (memWrite s b off v).srclen = s.srclen := rfl
@[simp] theorem memWrite_dstlen (s : State) (b : Space) (off : Nat) (v : List Byte) : (memWrite s b off v).dstlen = s.dstlen := rfl
@[simp] theorem memWrite_gfp (s : State) (b : Space) (off : Nat) (v : List Byte) : (memWrite s b off v).gfp = s.gfp := rfl
@[simp] theorem memWrite_keyin (s : State) (b : Space) (off : Nat) (v : List Byte) : (memWrite s b off v).keyin = s.keyin := rfl
@[simp] theorem memWrite_key (s : State) (b : Space) (off : Nat) (v : List Byte) : (memWrite s b off v).key = s.key := rfl
@[simp] theorem memWrite_blkin (s : State) (b : Space) (off : Nat) (v : List Byte) : (memWrite s b off v).blkin = s.blkin := rfl
@[simp] theorem memWrite_blkout (s : State) (b : Space) (off : Nat) (v : List Byte) : (memWrite s b off v).blkout = s.blkout := rfl
@[simp] theorem memWrite_ghop (s : State) (b : Space) (off : Nat) (v : List Byte) : (memWrite s b off v).ghop = s.ghop := rfl
@[simp] theorem memWrite_ctr (s : State) (b : Space) (off : Nat) (v : List Byte) : (memWrite s b off v).ctr = s.ctr := rfl
@[simp] theorem memWrite_tagin (s : State) (b : Space) (off : Nat) (v : List Byte) : (memWrite s b off v).tagin = s.tagin := rfl
@[simp] theorem memWrite_tagout (s : State) (b : Space) (off : Nat) (v : List Byte) : (memWrite s b off v).tagout = s.tagout := rfl
@[simp] theorem memWrite_rk (s : State) (b : Space) (off : Nat) (v : List Byte) : (memWrite s b off v).rk = s.rk := rfl
@[simp] theorem memWrite_h (s : State) (b : Space) (off : Nat) (v : List Byte) : (memWrite s b off v).h = s.h := rfl
@[simp] theorem memWrite_gft (s : State) (b : Space) (off : Nat) (v : List Byte) : (memWrite s b off v).gft = s.gft := rfl
@[simp] theorem memWrite_mem (s : State) (b : Space) (off : Nat) (v : List Byte) : (memWrite s b off v).mem = memoryWriteBytes s.mem (spaceBase b + off) v := rfl
@[simp] theorem memWrite_cfg (s : State) (b : Space) (off : Nat) (v : List Byte) : (memWrite s b off v).cfg = s.cfg := rfl
@[simp] theorem memWrite_inputs (s : State) (b : Space) (off : Nat) (v : List Byte) : (memWrite s b off v).inputs = s.inputs := rfl
@[simp] theorem memWrite_answer (s : State) (b : Space) (off : Nat) (v : List Byte) : (memWrite s b off v).answer = s.answer := rfl
@[simp] theorem memWrite_rng (s : State) (b : Space) (off : Nat) (v : List Byte) : (memWrite s b off v).rng = s.rng := rfl
@[simp] theorem memWrite_draws (s : State) (b : Space) (off : Nat) (v : List Byte) : (memWrite s b off v).draws = s.draws := rfl
@[simp] theorem memWrite_resets (s : State) (b : Space) (off : Nat) (v : List Byte) : (memWrite s b off v).resets = s.resets := rfl

/-! `applyReset` -/

@[simp] theorem applyReset_tblReady (s : State) : (applyReset s).tblReady = false := rfl
@[simp] theorem applyReset_keyValid (s : State) : (applyReset s).keyValid = false := rfl
@[simp] theorem applyReset_rkValid (s : State) : (applyReset s).rkValid = false := rfl
@[simp] theorem applyReset_hValid (s : State) : (applyReset s).hValid = false := rfl
@[simp] theorem applyReset_fatal (s : State) : (applyReset s).fatal = false := rfl
@[simp] theorem applyReset_result (s : State) : (applyReset s).result = .ok := rfl
@[simp] theorem applyReset_aadlen (s : State) : (applyReset s).aadlen = 0#32 := rfl
@[simp] theorem applyReset_srclen (s : State) : (applyReset s).srclen = 0#32 := rfl
@[simp] theorem applyReset_dstlen (s : State) : (applyReset s).dstlen = 0#32 := rfl
@[simp] theorem applyReset_gfp (s : State) : (applyReset s).gfp = 0#8 := rfl
@[simp] theorem applyReset_keyin (s : State) : (applyReset s).keyin = 0#128 := rfl
@[simp] theorem applyReset_key (s : State) : (applyReset s).key = 0#128 := rfl
@[simp] theorem applyReset_blkin (s : State) : (applyReset s).blkin = 0#128 := rfl
@[simp] theorem applyReset_blkout (s : State) : (applyReset s).blkout = 0#128 := rfl
@[simp] theorem applyReset_ghop (s : State) : (applyReset s).ghop = 0#128 := rfl
@[simp] theorem applyReset_ctr (s : State) : (applyReset s).ctr = 0#128 := rfl
@[simp] theorem applyReset_tagin (s : State) : (applyReset s).tagin = 0#128 := rfl
@[simp] theorem applyReset_tagout (s : State) : (applyReset s).tagout = 0#128 := rfl
@[simp] theorem applyReset_rk (s : State) : (applyReset s).rk = 0#1408 := rfl
@[simp] theorem applyReset_h (s : State) : (applyReset s).h = 0#128 := rfl
@[simp] theorem applyReset_gft (s : State) : (applyReset s).gft = .unspecified (s.resets + 1) := rfl
@[simp] theorem applyReset_mem (s : State) : (applyReset s).mem = [] := rfl
@[simp] theorem applyReset_cfg (s : State) : (applyReset s).cfg = s.cfg := rfl
@[simp] theorem applyReset_inputs (s : State) : (applyReset s).inputs = s.inputs := rfl
@[simp] theorem applyReset_answer (s : State) : (applyReset s).answer = none := rfl
@[simp] theorem applyReset_rng (s : State) : (applyReset s).rng = s.rng := rfl
@[simp] theorem applyReset_draws (s : State) : (applyReset s).draws = s.draws := rfl
@[simp] theorem applyReset_resets (s : State) : (applyReset s).resets = s.resets + 1 := rfl

/-! The caches: what `ensureTable`, `fillRk`, `fillH` and their compositions leave alone -/

@[simp] theorem ensureTable_keyValid (s : State) : (ensureTable s).keyValid = s.keyValid := by
  unfold ensureTable
  split <;> rfl
@[simp] theorem ensureTable_rkValid (s : State) : (ensureTable s).rkValid = s.rkValid := by
  unfold ensureTable
  split <;> rfl
@[simp] theorem ensureTable_hValid (s : State) : (ensureTable s).hValid = s.hValid := by
  unfold ensureTable
  split <;> rfl
@[simp] theorem ensureTable_fatal (s : State) : (ensureTable s).fatal = s.fatal := by
  unfold ensureTable
  split <;> rfl
@[simp] theorem ensureTable_result (s : State) : (ensureTable s).result = s.result := by
  unfold ensureTable
  split <;> rfl
@[simp] theorem ensureTable_aadlen (s : State) : (ensureTable s).aadlen = s.aadlen := by
  unfold ensureTable
  split <;> rfl
@[simp] theorem ensureTable_srclen (s : State) : (ensureTable s).srclen = s.srclen := by
  unfold ensureTable
  split <;> rfl
@[simp] theorem ensureTable_dstlen (s : State) : (ensureTable s).dstlen = s.dstlen := by
  unfold ensureTable
  split <;> rfl
@[simp] theorem ensureTable_gfp (s : State) : (ensureTable s).gfp = s.gfp := by
  unfold ensureTable
  split <;> rfl
@[simp] theorem ensureTable_keyin (s : State) : (ensureTable s).keyin = s.keyin := by
  unfold ensureTable
  split <;> rfl
@[simp] theorem ensureTable_key (s : State) : (ensureTable s).key = s.key := by
  unfold ensureTable
  split <;> rfl
@[simp] theorem ensureTable_blkin (s : State) : (ensureTable s).blkin = s.blkin := by
  unfold ensureTable
  split <;> rfl
@[simp] theorem ensureTable_blkout (s : State) : (ensureTable s).blkout = s.blkout := by
  unfold ensureTable
  split <;> rfl
@[simp] theorem ensureTable_ghop (s : State) : (ensureTable s).ghop = s.ghop := by
  unfold ensureTable
  split <;> rfl
@[simp] theorem ensureTable_ctr (s : State) : (ensureTable s).ctr = s.ctr := by
  unfold ensureTable
  split <;> rfl
@[simp] theorem ensureTable_tagin (s : State) : (ensureTable s).tagin = s.tagin := by
  unfold ensureTable
  split <;> rfl
@[simp] theorem ensureTable_tagout (s : State) : (ensureTable s).tagout = s.tagout := by
  unfold ensureTable
  split <;> rfl
@[simp] theorem ensureTable_rk (s : State) : (ensureTable s).rk = s.rk := by
  unfold ensureTable
  split <;> rfl
@[simp] theorem ensureTable_h (s : State) : (ensureTable s).h = s.h := by
  unfold ensureTable
  split <;> rfl
@[simp] theorem ensureTable_mem (s : State) : (ensureTable s).mem = s.mem := by
  unfold ensureTable
  split <;> rfl
@[simp] theorem ensureTable_cfg (s : State) : (ensureTable s).cfg = s.cfg := by
  unfold ensureTable
  split <;> rfl
@[simp] theorem ensureTable_inputs (s : State) : (ensureTable s).inputs = s.inputs := by
  unfold ensureTable
  split <;> rfl
@[simp] theorem ensureTable_answer (s : State) : (ensureTable s).answer = s.answer := by
  unfold ensureTable
  split <;> rfl
@[simp] theorem ensureTable_rng (s : State) : (ensureTable s).rng = s.rng := by
  unfold ensureTable
  split <;> rfl
@[simp] theorem ensureTable_draws (s : State) : (ensureTable s).draws = s.draws := by
  unfold ensureTable
  split <;> rfl
@[simp] theorem ensureTable_resets (s : State) : (ensureTable s).resets = s.resets := by
  unfold ensureTable
  split <;> rfl

@[simp] theorem fillRk_tblReady (s : State) : (fillRk s).tblReady = s.tblReady := by
  unfold fillRk
  split <;> rfl
@[simp] theorem fillRk_keyValid (s : State) : (fillRk s).keyValid = s.keyValid := by
  unfold fillRk
  split <;> rfl
@[simp] theorem fillRk_hValid (s : State) : (fillRk s).hValid = s.hValid := by
  unfold fillRk
  split <;> rfl
@[simp] theorem fillRk_fatal (s : State) : (fillRk s).fatal = s.fatal := by
  unfold fillRk
  split <;> rfl
@[simp] theorem fillRk_result (s : State) : (fillRk s).result = s.result := by
  unfold fillRk
  split <;> rfl
@[simp] theorem fillRk_aadlen (s : State) : (fillRk s).aadlen = s.aadlen := by
  unfold fillRk
  split <;> rfl
@[simp] theorem fillRk_srclen (s : State) : (fillRk s).srclen = s.srclen := by
  unfold fillRk
  split <;> rfl
@[simp] theorem fillRk_dstlen (s : State) : (fillRk s).dstlen = s.dstlen := by
  unfold fillRk
  split <;> rfl
@[simp] theorem fillRk_gfp (s : State) : (fillRk s).gfp = s.gfp := by
  unfold fillRk
  split <;> rfl
@[simp] theorem fillRk_keyin (s : State) : (fillRk s).keyin = s.keyin := by
  unfold fillRk
  split <;> rfl
@[simp] theorem fillRk_key (s : State) : (fillRk s).key = s.key := by
  unfold fillRk
  split <;> rfl
@[simp] theorem fillRk_blkin (s : State) : (fillRk s).blkin = s.blkin := by
  unfold fillRk
  split <;> rfl
@[simp] theorem fillRk_blkout (s : State) : (fillRk s).blkout = s.blkout := by
  unfold fillRk
  split <;> rfl
@[simp] theorem fillRk_ghop (s : State) : (fillRk s).ghop = s.ghop := by
  unfold fillRk
  split <;> rfl
@[simp] theorem fillRk_ctr (s : State) : (fillRk s).ctr = s.ctr := by
  unfold fillRk
  split <;> rfl
@[simp] theorem fillRk_tagin (s : State) : (fillRk s).tagin = s.tagin := by
  unfold fillRk
  split <;> rfl
@[simp] theorem fillRk_tagout (s : State) : (fillRk s).tagout = s.tagout := by
  unfold fillRk
  split <;> rfl
@[simp] theorem fillRk_h (s : State) : (fillRk s).h = s.h := by
  unfold fillRk
  split <;> rfl
@[simp] theorem fillRk_gft (s : State) : (fillRk s).gft = s.gft := by
  unfold fillRk
  split <;> rfl
@[simp] theorem fillRk_mem (s : State) : (fillRk s).mem = s.mem := by
  unfold fillRk
  split <;> rfl
@[simp] theorem fillRk_cfg (s : State) : (fillRk s).cfg = s.cfg := by
  unfold fillRk
  split <;> rfl
@[simp] theorem fillRk_inputs (s : State) : (fillRk s).inputs = s.inputs := by
  unfold fillRk
  split <;> rfl
@[simp] theorem fillRk_answer (s : State) : (fillRk s).answer = s.answer := by
  unfold fillRk
  split <;> rfl
@[simp] theorem fillRk_rng (s : State) : (fillRk s).rng = s.rng := by
  unfold fillRk
  split <;> rfl
@[simp] theorem fillRk_draws (s : State) : (fillRk s).draws = s.draws := by
  unfold fillRk
  split <;> rfl
@[simp] theorem fillRk_resets (s : State) : (fillRk s).resets = s.resets := by
  unfold fillRk
  split <;> rfl

@[simp] theorem fillH_tblReady (s : State) : (fillH s).tblReady = s.tblReady := by
  unfold fillH
  split <;> rfl
@[simp] theorem fillH_keyValid (s : State) : (fillH s).keyValid = s.keyValid := by
  unfold fillH
  split <;> rfl
@[simp] theorem fillH_rkValid (s : State) : (fillH s).rkValid = s.rkValid := by
  unfold fillH
  split <;> rfl
@[simp] theorem fillH_fatal (s : State) : (fillH s).fatal = s.fatal := by
  unfold fillH
  split <;> rfl
@[simp] theorem fillH_result (s : State) : (fillH s).result = s.result := by
  unfold fillH
  split <;> rfl
@[simp] theorem fillH_aadlen (s : State) : (fillH s).aadlen = s.aadlen := by
  unfold fillH
  split <;> rfl
@[simp] theorem fillH_srclen (s : State) : (fillH s).srclen = s.srclen := by
  unfold fillH
  split <;> rfl
@[simp] theorem fillH_dstlen (s : State) : (fillH s).dstlen = s.dstlen := by
  unfold fillH
  split <;> rfl
@[simp] theorem fillH_gfp (s : State) : (fillH s).gfp = s.gfp := by
  unfold fillH
  split <;> rfl
@[simp] theorem fillH_keyin (s : State) : (fillH s).keyin = s.keyin := by
  unfold fillH
  split <;> rfl
@[simp] theorem fillH_key (s : State) : (fillH s).key = s.key := by
  unfold fillH
  split <;> rfl
@[simp] theorem fillH_blkin (s : State) : (fillH s).blkin = s.blkin := by
  unfold fillH
  split <;> rfl
@[simp] theorem fillH_blkout (s : State) : (fillH s).blkout = s.blkout := by
  unfold fillH
  split <;> rfl
@[simp] theorem fillH_ghop (s : State) : (fillH s).ghop = s.ghop := by
  unfold fillH
  split <;> rfl
@[simp] theorem fillH_ctr (s : State) : (fillH s).ctr = s.ctr := by
  unfold fillH
  split <;> rfl
@[simp] theorem fillH_tagin (s : State) : (fillH s).tagin = s.tagin := by
  unfold fillH
  split <;> rfl
@[simp] theorem fillH_tagout (s : State) : (fillH s).tagout = s.tagout := by
  unfold fillH
  split <;> rfl
@[simp] theorem fillH_rk (s : State) : (fillH s).rk = s.rk := by
  unfold fillH
  split <;> rfl
@[simp] theorem fillH_gft (s : State) : (fillH s).gft = s.gft := by
  unfold fillH
  split <;> rfl
@[simp] theorem fillH_mem (s : State) : (fillH s).mem = s.mem := by
  unfold fillH
  split <;> rfl
@[simp] theorem fillH_cfg (s : State) : (fillH s).cfg = s.cfg := by
  unfold fillH
  split <;> rfl
@[simp] theorem fillH_inputs (s : State) : (fillH s).inputs = s.inputs := by
  unfold fillH
  split <;> rfl
@[simp] theorem fillH_answer (s : State) : (fillH s).answer = s.answer := by
  unfold fillH
  split <;> rfl
@[simp] theorem fillH_rng (s : State) : (fillH s).rng = s.rng := by
  unfold fillH
  split <;> rfl
@[simp] theorem fillH_draws (s : State) : (fillH s).draws = s.draws := by
  unfold fillH
  split <;> rfl
@[simp] theorem fillH_resets (s : State) : (fillH s).resets = s.resets := by
  unfold fillH
  split <;> rfl

@[simp] theorem ensureRk_keyValid (s : State) : (ensureRk s).keyValid = s.keyValid := by
  simp [ensureRk]
@[simp] theorem ensureRk_hValid (s : State) : (ensureRk s).hValid = s.hValid := by
  simp [ensureRk]
@[simp] theorem ensureRk_fatal (s : State) : (ensureRk s).fatal = s.fatal := by
  simp [ensureRk]
@[simp] theorem ensureRk_result (s : State) : (ensureRk s).result = s.result := by
  simp [ensureRk]
@[simp] theorem ensureRk_aadlen (s : State) : (ensureRk s).aadlen = s.aadlen := by
  simp [ensureRk]
@[simp] theorem ensureRk_srclen (s : State) : (ensureRk s).srclen = s.srclen := by
  simp [ensureRk]
@[simp] theorem ensureRk_dstlen (s : State) : (ensureRk s).dstlen = s.dstlen := by
  simp [ensureRk]
@[simp] theorem ensureRk_gfp (s : State) : (ensureRk s).gfp = s.gfp := by
  simp [ensureRk]
@[simp] theorem ensureRk_keyin (s : State) : (ensureRk s).keyin = s.keyin := by
  simp [ensureRk]
@[simp] theorem ensureRk_key (s : State) : (ensureRk s).key = s.key := by
  simp [ensureRk]
@[simp] theorem ensureRk_blkin (s : State) : (ensureRk s).blkin = s.blkin := by
  simp [ensureRk]
@[simp] theorem ensureRk_blkout (s : State) : (ensureRk s).blkout = s.blkout := by
  simp [ensureRk]
@[simp] theorem ensureRk_ghop (s : State) : (ensureRk s).ghop = s.ghop := by
  simp [ensureRk]
@[simp] theorem ensureRk_ctr (s : State) : (ensureRk s).ctr = s.ctr := by
  simp [ensureRk]
@[simp] theorem ensureRk_tagin (s : State) : (ensureRk s).tagin = s.tagin := by
  simp [ensureRk]
@[simp] theorem ensureRk_tagout (s : State) : (ensureRk s).tagout = s.tagout := by
  simp [ensureRk]
@[simp] theorem ensureRk_h (s : State) : (ensureRk s).h = s.h := by
  simp [ensureRk]
@[simp] theorem ensureRk_mem (s : State) : (ensureRk s).mem = s.mem := by
  simp [ensureRk]
@[simp] theorem ensureRk_cfg (s : State) : (ensureRk s).cfg = s.cfg := by
  simp [ensureRk]
@[simp] theorem ensureRk_inputs (s : State) : (ensureRk s).inputs = s.inputs := by
  simp [ensureRk]
@[simp] theorem ensureRk_answer (s : State) : (ensureRk s).answer = s.answer := by
  simp [ensureRk]
@[simp] theorem ensureRk_rng (s : State) : (ensureRk s).rng = s.rng := by
  simp [ensureRk]
@[simp] theorem ensureRk_draws (s : State) : (ensureRk s).draws = s.draws := by
  simp [ensureRk]
@[simp] theorem ensureRk_resets (s : State) : (ensureRk s).resets = s.resets := by
  simp [ensureRk]

@[simp] theorem ensureH_keyValid (s : State) : (ensureH s).keyValid = s.keyValid := by
  simp [ensureH]
@[simp] theorem ensureH_fatal (s : State) : (ensureH s).fatal = s.fatal := by
  simp [ensureH]
@[simp] theorem ensureH_result (s : State) : (ensureH s).result = s.result := by
  simp [ensureH]
@[simp] theorem ensureH_aadlen (s : State) : (ensureH s).aadlen = s.aadlen := by
  simp [ensureH]
@[simp] theorem ensureH_srclen (s : State) : (ensureH s).srclen = s.srclen := by
  simp [ensureH]
@[simp] theorem ensureH_dstlen (s : State) : (ensureH s).dstlen = s.dstlen := by
  simp [ensureH]
@[simp] theorem ensureH_gfp (s : State) : (ensureH s).gfp = s.gfp := by
  simp [ensureH]
@[simp] theorem ensureH_keyin (s : State) : (ensureH s).keyin = s.keyin := by
  simp [ensureH]
@[simp] theorem ensureH_key (s : State) : (ensureH s).key = s.key := by
  simp [ensureH]
@[simp] theorem ensureH_blkin (s : State) : (ensureH s).blkin = s.blkin := by
  simp [ensureH]
@[simp] theorem ensureH_blkout (s : State) : (ensureH s).blkout = s.blkout := by
  simp [ensureH]
@[simp] theorem ensureH_ghop (s : State) : (ensureH s).ghop = s.ghop := by
  simp [ensureH]
@[simp] theorem ensureH_ctr (s : State) : (ensureH s).ctr = s.ctr := by
  simp [ensureH]
@[simp] theorem ensureH_tagin (s : State) : (ensureH s).tagin = s.tagin := by
  simp [ensureH]
@[simp] theorem ensureH_tagout (s : State) : (ensureH s).tagout = s.tagout := by
  simp [ensureH]
@[simp] theorem ensureH_mem (s : State) : (ensureH s).mem = s.mem := by
  simp [ensureH]
@[simp] theorem ensureH_cfg (s : State) : (ensureH s).cfg = s.cfg := by
  simp [ensureH]
@[simp] theorem ensureH_inputs (s : State) : (ensureH s).inputs = s.inputs := by
  simp [ensureH]
@[simp] theorem ensureH_answer (s : State) : (ensureH s).answer = s.answer := by
  simp [ensureH]
@[simp] theorem ensureH_rng (s : State) : (ensureH s).rng = s.rng := by
  simp [ensureH]
@[simp] theorem ensureH_draws (s : State) : (ensureH s).draws = s.draws := by
  simp [ensureH]
@[simp] theorem ensureH_resets (s : State) : (ensureH s).resets = s.resets := by
  simp [ensureH]

end Sys2Proof.Machine
end

