-- ==== Sys2Proof/Laws/Bytes.lean ====
section
/-! SUPPORT. Bytes of blocks, byte strings and their pieces of 16. -/

namespace Sys2Proof.Machine

/-- Bit `i` of byte `k` of a block is bit 8·(15-k)+i of its number. -/
theorem blockByte_getLsbD (x : Block) (k i : Nat) :
    (blockByte x k).getLsbD i = (decide (i < 8) && x.getLsbD (8 * (15 - k) + i)) := by
  simp [blockByte]

@[simp] theorem blockByte_xor (x y : Block) (k : Nat) : blockByte (x ^^^ y) k = blockByte x k ^^^ blockByte y k := by
  ext i hi
  simp [blockByte]

@[simp] theorem blockByte_zero (k : Nat) : blockByte 0#128 k = 0#8 := by
  ext i hi
  simp [blockByte]

/-- The bytes of a block determine it. -/
theorem block_ext {x y : Block} (h : ∀ k < 16, blockByte x k = blockByte y k) : x = y := by
  apply BitVec.eq_of_getLsbD_eq
  intro i hi
  have hk := congrArg (fun b => b.getLsbD (i % 8)) (h (15 - i / 8) (by omega))
  have e : 8 * (15 - (15 - i / 8)) + i % 8 = i := by omega
  simpa only [blockByte_getLsbD, e, Nat.mod_lt i (by decide : 8 > 0), decide_true, Bool.true_and] using hk

/-- The block made from a function has its values as bytes. -/
@[simp] theorem blockByte_blockOfFn (f : Nat → Byte) {k : Nat} (hk : k < 16) : blockByte (blockOfFn f) k = f k := by
  apply BitVec.eq_of_getLsbD_eq
  intro i hi
  rw [blockByte_getLsbD]
  unfold blockOfFn
  simp only [BitVec.getLsbD_append]
  interval_cases k <;> interval_cases i <;> rfl

theorem blockOfFn_blockByte (x : Block) : blockOfFn (blockByte x) = x :=
  block_ext fun _ hk => blockByte_blockOfFn _ hk

theorem blockOfFn_congr {f g : Nat → Byte} (h : ∀ k < 16, f k = g k) : blockOfFn f = blockOfFn g :=
  block_ext fun k hk => by rw [blockByte_blockOfFn f hk, blockByte_blockOfFn g hk, h k hk]

@[simp] theorem blockByte_blockOfBytes (bs : List Byte) {k : Nat} (hk : k < 16) :
    blockByte (blockOfBytes bs) k = bs.getD k 0#8 :=
  blockByte_blockOfFn _ hk

theorem blockByte_setBlockByte (x : Block) (k : Nat) (b : Byte) {n : Nat} (hn : n < 16) :
    blockByte (setBlockByte x k b) n = if n = k then b else blockByte x n :=
  blockByte_blockOfFn _ hn

@[simp] theorem blockBytes_length (x : Block) : (blockBytes x).length = 16 := by
  simp [blockBytes]

theorem blockBytes_getElem (x : Block) (k : Nat) (h : k < (blockBytes x).length) :
    (blockBytes x)[k] = blockByte x k := by
  simp [blockBytes]

/-- A block is made of its bytes. -/
@[simp] theorem blockOfBytes_blockBytes (x : Block) : blockOfBytes (blockBytes x) = x :=
  block_ext fun k hk => by
    rw [blockByte_blockOfBytes _ hk, List.getD_eq_getElem _ _ (by simpa using hk), blockBytes_getElem]

@[simp] theorem ivBytes_length (iv : Iv) : (ivBytes iv).length = 12 := by
  simp [ivBytes]

/-- The first 12 bytes of the block made from an IV's bytes are that IV, whatever follows them. -/
theorem blockOfBytes_ivBytes (iv : Iv) : blockOfBytes (ivBytes iv) = iv ++ 0#32 := by
  refine block_ext fun k hk => ?_
  rw [blockByte_blockOfBytes _ hk]
  apply BitVec.eq_of_getLsbD_eq
  intro i hi
  simp only [blockByte_getLsbD, BitVec.getLsbD_append, ivBytes]
  interval_cases k <;> interval_cases i <;> simp

/-- An IV is made of its bytes. -/
@[simp] theorem ivOfBytes_ivBytes (iv : Iv) : ivOfBytes (ivBytes iv) = iv := by
  apply BitVec.eq_of_getLsbD_eq
  intro i hi
  have h : ¬ 32 + i < 32 := by omega
  rw [ivOfBytes, BitVec.getLsbD_extractLsb', blockOfBytes_ivBytes, BitVec.getLsbD_append]
  simp [hi, h]

@[simp] theorem xorBytes_length (xs ys : List Byte) : (xorBytes xs ys).length = min xs.length ys.length := by
  simp [xorBytes]

/-- Exclusive or with the same string twice gives the string back, where the second is long enough. -/
theorem xorBytes_xorBytes {xs ys : List Byte} (h : xs.length ≤ ys.length) :
    xorBytes (xorBytes xs ys) ys = xs := by
  refine List.ext_getElem (by simp; omega) fun k h1 h2 => ?_
  simp [xorBytes]

@[simp] theorem takeChunks_length (n : Nat) (bs : List Byte) : (takeChunks n bs).length = n := by
  induction n generalizing bs with
  | zero => rfl
  | succ n ih => simp [takeChunks, ih]

/-- Piece `j` is the bytes 16j up to 16j+15, as far as the string goes. -/
theorem takeChunks_getElem (n : Nat) (bs : List Byte) (j : Nat) (h : j < (takeChunks n bs).length) :
    (takeChunks n bs)[j] = (bs.drop (16 * j)).take 16 := by
  induction n generalizing bs j with
  | zero => simp at h
  | succ n ih =>
    cases j with
    | zero => rfl
    | succ j =>
      simp only [takeChunks, List.getElem_cons_succ, ih, List.drop_drop]
      congr 2
      omega

@[simp] theorem chunks16_nil : chunks16 [] = [] := rfl

@[simp] theorem chunks16_length (bs : List Byte) : (chunks16 bs).length = (bs.length + 15) / 16 := by
  simp [chunks16]

/-- A non-empty string is its first 16 bytes and the pieces of the rest. -/
theorem chunks16_cons {bs : List Byte} (h : bs ≠ []) : chunks16 bs = bs.take 16 :: chunks16 (bs.drop 16) := by
  have hl : 0 < bs.length := List.length_pos_iff.2 h
  have e : (bs.length + 15) / 16 = ((bs.drop 16).length + 15) / 16 + 1 := by simp; omega
  simp [chunks16, e, takeChunks]

/-- The pieces of a string, put together again, are the string. -/
theorem chunks16_flatten (bs : List Byte) : (chunks16 bs).flatten = bs := by
  induction h : bs.length using Nat.strong_induction_on generalizing bs with
  | _ n ih =>
    by_cases hb : bs = []
    · subst hb
      rfl
    · have hl : 0 < bs.length := List.length_pos_iff.2 hb
      rw [chunks16_cons hb, List.flatten_cons, ih (bs.drop 16).length (by simp; omega) _ rfl,
        List.take_append_drop]

end Sys2Proof.Machine
end

