-- ==== Sys2Proof/Laws/Mode.lean ====
section
/-! SUPPORT. What the counter transform, `Seal` and `Open` give, without their unfolding. -/

namespace Sys2Proof.Machine

theorem inc128_eq (c : Block) : inc128 c = c + 1#128 := by
  apply BitVec.eq_of_toNat_eq
  simp [inc128]

theorem chunks16_length_le (bs : List Byte) : ∀ x ∈ chunks16 bs, x.length ≤ 16 := by
  intro x hx
  obtain ⟨i, hi, rfl⟩ := List.getElem_of_mem hx
  simp only [chunks16]
  rw [takeChunks_getElem]
  simp

theorem ctrXorChunks_length (t : GfTable) (rk : Schedule) (c : Block) (cs : List (List Byte))
    (h : ∀ x ∈ cs, x.length ≤ 16) : (ctrXorChunks t rk c cs).length = cs.flatten.length := by
  induction cs generalizing c with
  | nil => rfl
  | cons x xs ih =>
    simp only [ctrXorChunks, List.length_append, List.flatten_cons, xorBytes_length, blockBytes_length]
    rw [ih _ fun y hy => h y (by simp [hy])]
    have := h x (by simp)
    omega

/-- The transform is as long as its data. -/
@[simp] theorem ctrXor_length (t : GfTable) (rk : Schedule) (iv : Iv) (d : List Byte) :
    (ctrXor t rk iv d).length = d.length := by
  rw [ctrXor, ctrXorChunks_length _ _ _ _ (chunks16_length_le d), chunks16_flatten]

theorem sealMessage_envelope (t : GfTable) (rk : Schedule) (h : Block) (iv : Iv) (p aad : List Byte) :
    (sealMessage t rk h iv p aad).1 = ivBytes iv ++ ctrXor t rk iv p := by
  rfl

theorem sealMessage_tag (t : GfTable) (rk : Schedule) (h : Block) (iv : Iv) (p aad : List Byte) :
    (sealMessage t rk h iv p aad).2 = ghash h aad (ctrXor t rk iv p) := by
  rfl

@[simp] theorem sealMessage_length (t : GfTable) (rk : Schedule) (h : Block) (iv : Iv) (p aad : List Byte) :
    (sealMessage t rk h iv p aad).1.length = 12 + p.length := by
  simp [sealMessage_envelope]

theorem openMessage_eq (t : GfTable) (rk : Schedule) (h : Block) (env aad : List Byte) (tag : Block) :
    openMessage t rk h env aad tag =
      if ghash h aad (env.drop 12) = tag then some (ctrXor t rk (ivOfBytes (env.take 12)) (env.drop 12)) else none := by
  rfl

theorem openMessage_of_eq {t : GfTable} {rk : Schedule} {h : Block} {env aad : List Byte} {tag : Block}
    (e : ghash h aad (env.drop 12) = tag) :
    openMessage t rk h env aad tag = some (ctrXor t rk (ivOfBytes (env.take 12)) (env.drop 12)) := by
  rw [openMessage_eq]
  exact if_pos e

theorem openMessage_of_ne {t : GfTable} {rk : Schedule} {h : Block} {env aad : List Byte} {tag : Block}
    (e : ghash h aad (env.drop 12) ≠ tag) : openMessage t rk h env aad tag = none := by
  rw [openMessage_eq]
  exact if_neg e

theorem openMessage_length {t : GfTable} {rk : Schedule} {h : Block} {env aad p : List Byte} {tag : Block}
    (e : openMessage t rk h env aad tag = some p) : p.length = env.length - 12 := by
  rw [openMessage_eq] at e
  split at e
  case isTrue =>
    rw [← Option.some.inj e]
    simp
  case isFalse => cases e

end Sys2Proof.Machine
end

