-- ==== Sys2Proof/Laws/Memory.lean ====
section
/-! SUPPORT. Memory: read after write, the canonical form, the buffers. -/

namespace Sys2Proof.Machine

@[simp] theorem memoryRead_nil (a : Nat) : memoryRead [] a = none := rfl

/-- A write changes what is read at its own address and nowhere else. -/
theorem memoryRead_memoryWrite (m : Memory) (a a' : Nat) (b : Byte) :
    memoryRead (memoryWrite m a b) a' = if a' = a then some b else memoryRead m a' := by
  induction m with
  | nil => simp [memoryWrite, memoryRead]
  | cons c m ih =>
    obtain ⟨x, y⟩ := c
    unfold memoryWrite
    split
    · rfl
    · split
      · subst x
        simp only [memoryRead]
        split <;> rfl
      · simp only [memoryRead, ih]
        grind

@[simp] theorem memoryRead_memoryWrite_self (m : Memory) (a : Nat) (b : Byte) :
    memoryRead (memoryWrite m a b) a = some b := by
  simp [memoryRead_memoryWrite]

theorem memoryRead_memoryWrite_ne (m : Memory) {a a' : Nat} (b : Byte) (h : a' ≠ a) :
    memoryRead (memoryWrite m a b) a' = memoryRead m a' := by
  simp [memoryRead_memoryWrite, h]

/-- The cells of memory after a write are the cell written and cells there before. -/
theorem mem_memoryWrite {m : Memory} {a : Nat} {b : Byte} {c : Host.Cell} (h : c ∈ memoryWrite m a b) :
    c = (a, b) ∨ c ∈ m := by
  induction m with
  | nil => simpa [memoryWrite] using h
  | cons d m ih =>
    obtain ⟨x, y⟩ := d
    unfold memoryWrite at h
    split at h
    · simpa using h
    · split at h
      · rcases List.mem_cons.1 h with h | h
        · exact .inl h
        · exact .inr (List.mem_cons_of_mem _ h)
      · rcases List.mem_cons.1 h with h | h
        · exact .inr (h ▸ List.mem_cons_self)
        · exact (ih h).imp_right (List.mem_cons_of_mem _)

/-- A write keeps the canonical form. -/
theorem memoryWrite_wf {m : Memory} (h : Memory.wf m) (a : Nat) (b : Byte) : Memory.wf (memoryWrite m a b) := by
  induction m with
  | nil => simp [Memory.wf, memoryWrite]
  | cons d m ih =>
    obtain ⟨x, y⟩ := d
    obtain ⟨hx, hm⟩ := List.pairwise_cons.1 h
    unfold memoryWrite
    split
    case isTrue hlt =>
      refine List.pairwise_cons.2 ⟨fun c hc => ?_, h⟩
      rcases List.mem_cons.1 hc with rfl | hc
      · exact hlt
      · exact hlt.trans (hx c hc)
    case isFalse hge =>
      split
      case isTrue heq => exact List.pairwise_cons.2 ⟨fun c hc => heq ▸ hx c hc, hm⟩
      case isFalse hne =>
        refine List.pairwise_cons.2 ⟨fun c hc => ?_, ih hm⟩
        rcases mem_memoryWrite hc with rfl | hc
        · show x < a
          omega
        · exact hx c hc

/-- What is read after a byte string is written: its bytes from its address on, and memory as before elsewhere. -/
theorem memoryRead_memoryWriteBytes (m : Memory) (a : Nat) (bs : List Byte) (a' : Nat) :
    memoryRead (memoryWriteBytes m a bs) a' =
      if a ≤ a' ∧ a' < a + bs.length then bs[a' - a]? else memoryRead m a' := by
  induction bs generalizing m a with
  | nil => simp [memoryWriteBytes]
  | cons b bs ih =>
    rw [memoryWriteBytes, ih, memoryRead_memoryWrite]
    by_cases h : a' = a
    · subst h
      simp
    · by_cases h2 : a + 1 ≤ a' ∧ a' < a + 1 + bs.length
      · have h3 : a ≤ a' ∧ a' < a + (b :: bs).length := by simp; omega
        have h4 : a' - a = (a' - (a + 1)) + 1 := by omega
        rw [if_pos h2, if_pos h3, h4, List.getElem?_cons_succ]
      · have h3 : ¬ (a ≤ a' ∧ a' < a + (b :: bs).length) := by simp; omega
        rw [if_neg h2, if_neg h3, if_neg h]

theorem memoryRead_memoryWriteBytes_outside (m : Memory) (a : Nat) (bs : List Byte) {a' : Nat}
    (h : a' < a ∨ a + bs.length ≤ a') : memoryRead (memoryWriteBytes m a bs) a' = memoryRead m a' := by
  rw [memoryRead_memoryWriteBytes, if_neg (by omega)]

theorem memoryWriteBytes_wf {m : Memory} (h : Memory.wf m) (a : Nat) (bs : List Byte) :
    Memory.wf (memoryWriteBytes m a bs) := by
  induction bs generalizing m a with
  | nil => exact h
  | cons b bs ih => exact ih (memoryWrite_wf h a b) (a + 1)

/-- The cells of memory after a byte string is written lie in the range written or were there before. -/
theorem mem_memoryWriteBytes {m : Memory} {a : Nat} {bs : List Byte} {c : Host.Cell}
    (h : c ∈ memoryWriteBytes m a bs) : (a ≤ c.1 ∧ c.1 < a + bs.length) ∨ c ∈ m := by
  induction bs generalizing m a with
  | nil => exact .inr h
  | cons b bs ih =>
    rcases ih h with h | h
    · left
      simp
      omega
    · rcases mem_memoryWrite h with rfl | h
      · left
        simp
      · exact .inr h

/-- A cell's byte depends on what is written there and on the number of resets only. -/
theorem cellByte_congr {s t : State} {a : Nat} (h : memoryRead s.mem a = memoryRead t.mem a)
    (hr : s.resets = t.resets) : cellByte s a = cellByte t a := by
  simp [cellByte, h, hr]

/-- `MemWrite` leaves every cell outside the bytes written as it was. -/
theorem cellByte_memWrite_outside (s : State) (b : Space) (off : Nat) (v : List Byte) {a : Nat}
    (h : a < spaceBase b + off ∨ spaceBase b + off + v.length ≤ a) :
    cellByte (memWrite s b off v) a = cellByte s a :=
  cellByte_congr (by simpa using memoryRead_memoryWriteBytes_outside s.mem _ v h) rfl

/-- What `MemWrite` writes, the buffer then holds. -/
theorem bufferByte_memWrite_inside (s : State) (b : Space) (v : List Byte) {off : Nat} (h : off < v.length) :
    bufferByte (memWrite s b 0 v) b off = v[off] := by
  simp [bufferByte, cellByte, memoryRead_memoryWriteBytes, h]

@[simp] theorem memRead_length (s : State) (b : Space) (off n : Nat) : (memRead s b off n).length = n := by
  simp [memRead]

theorem memRead_getElem (s : State) (b : Space) (off n k : Nat) (h : k < (memRead s b off n).length) :
    (memRead s b off n)[k] = bufferByte s b (off + k) := by
  simp [memRead]

/-- `MemRead` of what `MemWrite` wrote gives it back. -/
theorem memRead_memWrite (s : State) (b : Space) (v : List Byte) :
    memRead (memWrite s b 0 v) b 0 v.length = v := by
  refine List.ext_getElem (by simp) fun k _ h => ?_
  rw [memRead_getElem, Nat.zero_add, bufferByte_memWrite_inside s b v h]

/-- `MemRead` depends on the bytes it reads only. -/
theorem memRead_congr {s t : State} {b : Space} {off n : Nat}
    (h : ∀ k < n, bufferByte s b (off + k) = bufferByte t b (off + k)) : memRead s b off n = memRead t b off n := by
  refine List.ext_getElem (by simp) fun k hk _ => ?_
  rw [memRead_getElem, memRead_getElem]
  exact h k (by simpa using hk)

end Sys2Proof.Machine
end

