-- ==== Sys2Proof/Laws/Ops.lean ====
section
/-! SUPPORT. What each shared operation can do, said once: the prologue of a command, the caches, host writes, and the
cases of a step. -/

namespace Sys2Proof.Machine

/-- While FATAL is clear a command runs its rule. -/
theorem command_of_safe {s : State} (h : s.safe) (rule : State → State) : command rule s = .next (rule s) := by
  simp [command, h]

/-- While FATAL is set a command changes nothing. -/
theorem command_of_fatal {s : State} (h : s.fatal = true) (rule : State → State) : command rule s = .next s := by
  simp [command, h]

theorem withKey_of_valid {s : State} (h : s.keyValid = true) (rule : State → State) : withKey rule s = rule s := by
  simp [withKey, h]

theorem withKey_of_invalid {s : State} (h : s.keyValid = false) (rule : State → State) :
    withKey rule s = raiseContract s := by
  simp [withKey, h]

/-- The rule that each command runs. -/
def ruleOf : Instr → State → State
  | .gfinit => gfinitRule
  | .gfmul a b => gfmulRule a b
  | .gfmulf a b => gfmulfRule a b
  | .kload => kloadRule
  | .kexp => withKey kexpRule
  | .encblk => withKey encblkRule
  | .hderive => withKey hderiveRule
  | .ctrinc => ctrincRule
  | .ghmul => ghmulRule
  | .aeenc => withKey aeencRule
  | .aedec => withKey aedecRule
  | .clr => clrRule

/-- Every command is its rule behind the FATAL gate. -/
theorem exec_eq_command (i : Instr) (s : State) : exec i s = command (ruleOf i) s := by
  cases i <;> rfl

/-- The table is complete after `ensureTable`, in a state whose table is what TBL_READY says. -/
theorem ensureTable_eq {s : State} (h : s.tableInv) :
    ensureTable s = { s with gft := .complete, tblReady := true } := by
  unfold ensureTable
  split
  case isTrue ht => rw [← h ht, ← ht]
  case isFalse => rfl

/-- RK is the schedule of KEY after `ensureRk`. -/
theorem ensureRk_eq {s : State} (ht : s.tableInv) (h : s.rkValid = true → s.rk = expandKey s.key) :
    ensureRk s = { s with gft := .complete, tblReady := true, rk := expandKey s.key, rkValid := true } := by
  unfold ensureRk
  rw [ensureTable_eq ht]
  unfold fillRk
  split
  case isTrue hr => simp_all
  case isFalse => rfl

/-- H is the hash subkey of KEY after `ensureH`. -/
theorem ensureH_eq {s : State} (hc : s.CacheInv) (hf : s.FlagInv) :
    ensureH s = { s with
      gft := .complete
      tblReady := true
      rk := expandKey s.key
      rkValid := true
      h := encryptBlock .complete 0#128 (expandKey s.key)
      hValid := true } := by
  unfold ensureH
  rw [ensureRk_eq hc.table hc.schedule]
  unfold fillH
  split
  case isTrue hh =>
    have hv : s.hValid = true := hh
    have h1 := hc.subkey hv
    rw [hc.schedule (hf.hValid_rkValid hv)] at h1
    rw [← h1, ← hv]
  case isFalse => rfl

/-- `s` with the parts a host write can change taken from `u`: AADLEN, SRCLEN, the writable 16-byte registers and memory. -/
def hostPart (s u : State) : State :=
  { s with
    aadlen := u.aadlen
    srclen := u.srclen
    keyin := u.keyin
    blkin := u.blkin
    ghop := u.ghop
    ctr := u.ctr
    tagin := u.tagin
    mem := u.mem }

theorem hostPart_trans {s t u : State} (h1 : t = hostPart s t) (h2 : u = hostPart t u) : u = hostPart s u := by
  rw [h1] at h2
  exact h2

/-- A host write to a byte cell is a write of a writable 16-byte register, a write of one byte of AADBUF or SRCBUF, or
nothing. -/
theorem storeByteCell_cases (s : State) (b : Byte) (c : ByteCell) :
    storeByteCell s b c = s ∨
    (∃ r k, c = .reg r k ∧ hostWritable r = true ∧
      storeByteCell s b c = writeBlockReg s (setBlockByte (readBlockReg s r) k b) r) ∨
    (∃ off, c = .buf .aad off ∧ storeByteCell s b c = memWrite s .aad off [b]) ∨
    (∃ off, c = .buf .src off ∧ storeByteCell s b c = memWrite s .src off [b]) := by
  cases c with
  | reg r k =>
    cases h : hostWritable r
    · simp [storeByteCell, h]
    · exact .inr (.inl ⟨r, k, rfl, h, by simp [storeByteCell, h]⟩)
  | buf sp off =>
    cases sp
    · exact .inr (.inr (.inl ⟨off, rfl, rfl⟩))
    · exact .inr (.inr (.inr ⟨off, rfl, rfl⟩))
    · exact .inl rfl

theorem writeBlockReg_hostPart (s : State) (v : Block) {r : BlockReg} (h : hostWritable r = true) :
    writeBlockReg s v r = hostPart s (writeBlockReg s v r) := by
  cases r <;> first | rfl | cases h

theorem storeByteCell_hostPart (s : State) (b : Byte) (c : ByteCell) :
    storeByteCell s b c = hostPart s (storeByteCell s b c) := by
  rcases storeByteCell_cases s b c with e | ⟨r, k, -, h, e⟩ | ⟨off, -, e⟩ | ⟨off, -, e⟩
  · rw [e]; rfl
  · rw [e]; exact writeBlockReg_hostPart s _ h
  · rw [e]; rfl
  · rw [e]; rfl

theorem storeCells_hostPart (s : State) (d : Word) (k : Nat) (cs : List ByteCell) :
    storeCells s d k cs = hostPart s (storeCells s d k cs) := by
  induction cs generalizing s k with
  | nil => rfl
  | cons c cs ih => exact hostPart_trans (storeByteCell_hostPart s _ c) (ih _ _)

/-- A host write changes AADLEN, SRCLEN, KEYIN, BLKIN, GHOP, CTR, TAGIN and memory at most. -/
theorem writeTarget_hostPart (s : State) (d : Word) (g : Target) :
    writeTarget s d g = hostPart s (writeTarget s d g) := by
  unfold writeTarget
  split
  · rfl
  · cases g with
    | word r => cases r <;> rfl
    | cells cs => exact storeCells_hostPart s d 0 cs

/-- While FATAL is set a host write changes nothing. -/
theorem writeTarget_of_fatal {s : State} (h : s.fatal = true) (d : Word) (g : Target) : writeTarget s d g = s := by
  simp [writeTarget, h]

@[simp] theorem writeTarget_tblReady (s : State) (d : Word) (g : Target) : (writeTarget s d g).tblReady = s.tblReady := by
  rw [writeTarget_hostPart]
  rfl
@[simp] theorem writeTarget_keyValid (s : State) (d : Word) (g : Target) : (writeTarget s d g).keyValid = s.keyValid := by
  rw [writeTarget_hostPart]
  rfl
@[simp] theorem writeTarget_rkValid (s : State) (d : Word) (g : Target) : (writeTarget s d g).rkValid = s.rkValid := by
  rw [writeTarget_hostPart]
  rfl
@[simp] theorem writeTarget_hValid (s : State) (d : Word) (g : Target) : (writeTarget s d g).hValid = s.hValid := by
  rw [writeTarget_hostPart]
  rfl
@[simp] theorem writeTarget_fatal (s : State) (d : Word) (g : Target) : (writeTarget s d g).fatal = s.fatal := by
  rw [writeTarget_hostPart]
  rfl
@[simp] theorem writeTarget_result (s : State) (d : Word) (g : Target) : (writeTarget s d g).result = s.result := by
  rw [writeTarget_hostPart]
  rfl
@[simp] theorem writeTarget_dstlen (s : State) (d : Word) (g : Target) : (writeTarget s d g).dstlen = s.dstlen := by
  rw [writeTarget_hostPart]
  rfl
@[simp] theorem writeTarget_gfp (s : State) (d : Word) (g : Target) : (writeTarget s d g).gfp = s.gfp := by
  rw [writeTarget_hostPart]
  rfl
@[simp] theorem writeTarget_key (s : State) (d : Word) (g : Target) : (writeTarget s d g).key = s.key := by
  rw [writeTarget_hostPart]
  rfl
@[simp] theorem writeTarget_blkout (s : State) (d : Word) (g : Target) : (writeTarget s d g).blkout = s.blkout := by
  rw [writeTarget_hostPart]
  rfl
@[simp] theorem writeTarget_tagout (s : State) (d : Word) (g : Target) : (writeTarget s d g).tagout = s.tagout := by
  rw [writeTarget_hostPart]
  rfl
@[simp] theorem writeTarget_rk (s : State) (d : Word) (g : Target) : (writeTarget s d g).rk = s.rk := by
  rw [writeTarget_hostPart]
  rfl
@[simp] theorem writeTarget_h (s : State) (d : Word) (g : Target) : (writeTarget s d g).h = s.h := by
  rw [writeTarget_hostPart]
  rfl
@[simp] theorem writeTarget_gft (s : State) (d : Word) (g : Target) : (writeTarget s d g).gft = s.gft := by
  rw [writeTarget_hostPart]
  rfl
@[simp] theorem writeTarget_cfg (s : State) (d : Word) (g : Target) : (writeTarget s d g).cfg = s.cfg := by
  rw [writeTarget_hostPart]
  rfl
@[simp] theorem writeTarget_inputs (s : State) (d : Word) (g : Target) : (writeTarget s d g).inputs = s.inputs := by
  rw [writeTarget_hostPart]
  rfl
@[simp] theorem writeTarget_answer (s : State) (d : Word) (g : Target) : (writeTarget s d g).answer = s.answer := by
  rw [writeTarget_hostPart]
  rfl
@[simp] theorem writeTarget_rng (s : State) (d : Word) (g : Target) : (writeTarget s d g).rng = s.rng := by
  rw [writeTarget_hostPart]
  rfl
@[simp] theorem writeTarget_draws (s : State) (d : Word) (g : Target) : (writeTarget s d g).draws = s.draws := by
  rw [writeTarget_hostPart]
  rfl
@[simp] theorem writeTarget_resets (s : State) (d : Word) (g : Target) : (writeTarget s d g).resets = s.resets := by
  rw [writeTarget_hostPart]
  rfl

/-- The cases of a step. The machine idles, is reset, answers a read, answers `error` to a write, runs a command, takes
an illegal command word, or stores what the host writes. -/
theorem step_cases {s t : State} (h : step s = .next t) :
    (s.inputs = [] ∧ t = s) ∨
    (∃ rest, s.inputs = .reset :: rest ∧ t = applyReset (answered s rest none)) ∨
    (∃ rest a size, s.inputs = .bus (.read a size) :: rest ∧ t = answered s rest (some (busRead s a size))) ∨
    (∃ rest a size d, s.inputs = .bus (.write a size d) :: rest ∧ targetAt s.cfg a.toNat size = none ∧
      t = answered s rest (some .error)) ∨
    (∃ rest a size d i, s.inputs = .bus (.write a size d) :: rest ∧
      targetAt s.cfg a.toNat size = some (.word .cmd) ∧ decode d = .ok i ∧
      exec i (answered s rest (some .writeOk)) = .next t) ∨
    (∃ rest a size d e, s.inputs = .bus (.write a size d) :: rest ∧
      targetAt s.cfg a.toNat size = some (.word .cmd) ∧ decode d = .error e ∧
      command raiseContract (answered s rest (some .writeOk)) = .next t) ∨
    (∃ rest a size d g, s.inputs = .bus (.write a size d) :: rest ∧ targetAt s.cfg a.toNat size = some g ∧
      g ≠ .word .cmd ∧ t = writeTarget (answered s rest (some .writeOk)) d g) := by
  unfold step takeInput at h
  split at h
  case h_1 hi => exact .inl ⟨hi, by simpa using h.symm⟩
  case h_2 rest hi => exact .inr (.inl ⟨rest, hi, by simpa using h.symm⟩)
  case h_3 tr rest hi =>
    unfold performTransaction at h
    split at h
    case h_1 a size => exact .inr (.inr (.inl ⟨rest, a, size, hi, by simpa using h.symm⟩))
    case h_2 a size d =>
      split at h
      case h_1 hn => exact .inr (.inr (.inr (.inl ⟨rest, a, size, d, hi, hn, by simpa using h.symm⟩)))
      case h_2 hc =>
        unfold issue at h
        split at h
        case h_1 i hd => exact .inr (.inr (.inr (.inr (.inl ⟨rest, a, size, d, i, hi, hc, hd, h⟩))))
        case h_2 e hd => exact .inr (.inr (.inr (.inr (.inr (.inl ⟨rest, a, size, d, e, hi, hc, hd, h⟩)))))
      case h_3 g hg hne =>
        exact .inr (.inr (.inr (.inr (.inr (.inr
          ⟨rest, a, size, d, g, hi, hne, fun e => hg (by rw [← e]), by simpa using h.symm⟩)))))

end Sys2Proof.Machine
end

