-- ==== Sys2Proof/Laws/Aead.lean ====
section
/-! SUPPORT. What AEENC and AEDEC leave after their checks, in a state whose caches are what their valid bits say. -/

namespace Sys2Proof.Machine

/-- What AEENC seals: the plaintext of SRCBUF with the AAD, under the next draw. -/
abbrev aeencSealed (s : State) : List Byte × Block :=
  sealMessage .complete (expandKey s.key) (encryptBlock .complete 0#128 (expandKey s.key)) (nextDraw s)
    (memRead s .src 0 s.srclen.toNat) (memRead s .aad 0 s.aadlen.toNat)

/-- What AEDEC opens: the envelope of SRCBUF with the AAD and the tag of TAGIN. -/
abbrev aedecOpened (s : State) : Option (List Byte) :=
  openMessage .complete (expandKey s.key) (encryptBlock .complete 0#128 (expandKey s.key))
    (memRead s .src 0 s.srclen.toNat) (memRead s .aad 0 s.aadlen.toNat) s.tagin

/-- The state with all three caches filled. -/
abbrev cached (s : State) : State :=
  { s with
    gft := .complete
    tblReady := true
    rk := expandKey s.key
    rkValid := true
    h := encryptBlock .complete 0#128 (expandKey s.key)
    hValid := true }

theorem memRead_of_mem {s u : State} (hm : s.mem = u.mem) (hr : s.resets = u.resets) (b : Space) (n : Nat) :
    memRead u b 0 n = memRead s b 0 n :=
  memRead_congr fun k _ => cellByte_congr (by rw [hm]) hr.symm

theorem aeencWork_eq {s : State} (hc : s.CacheInv) (hf : s.FlagInv) :
    aeencWork s = { cached s with
      dstlen := s.srclen + 12#32
      tagout := (aeencSealed s).2
      mem := memoryWriteBytes s.mem (spaceBase .dst) (aeencSealed s).1
      rng := s.rng.tail
      draws := s.draws + 1
      result := .ok } := by
  unfold aeencWork aeencSealed cached
  rw [ensureH_eq hc hf]
  generalize encryptBlock .complete 0#128 (expandKey s.key) = hk
  generalize expandKey s.key = rk
  simp only [complete, memWrite, consumeDraw, Nat.add_zero]
  rfl

theorem aedecWork_of_some {s : State} (hc : s.CacheInv) (hf : s.FlagInv) {p : List Byte} (h : aedecOpened s = some p) :
    aedecWork s = { cached s with
      dstlen := s.srclen - 12#32
      tagout := 0#128
      mem := memoryWriteBytes s.mem (spaceBase .dst) p
      result := .ok } := by
  unfold aedecWork cached
  unfold aedecOpened at h
  rw [ensureH_eq hc hf]
  generalize encryptBlock .complete 0#128 (expandKey s.key) = hk at *
  generalize expandKey s.key = rk at *
  change (match openMessage .complete rk hk (memRead s .src 0 s.srclen.toNat) (memRead s .aad 0 s.aadlen.toNat) s.tagin with
    | none => _
    | some p => _) = _
  rw [h]
  rfl

theorem aedecWork_of_none {s : State} (hc : s.CacheInv) (hf : s.FlagInv) (h : aedecOpened s = none) :
    aedecWork s = { cached s with
      dstlen := 0#32
      tagout := 0#128
      result := .authFail } := by
  unfold aedecWork cached
  unfold aedecOpened at h
  rw [ensureH_eq hc hf]
  generalize encryptBlock .complete 0#128 (expandKey s.key) = hk at *
  generalize expandKey s.key = rk at *
  change (match openMessage .complete rk hk (memRead s .src 0 s.srclen.toNat) (memRead s .aad 0 s.aadlen.toNat) s.tagin with
    | none => _
    | some p => _) = _
  rw [h]
  rfl

end Sys2Proof.Machine
end

