-- ==== Sys2Proof/Laws/Decode.lean ====
section
/-! SUPPORT. What the fields of the two word formats are, and which words a decoding goes through. -/

namespace Sys2Proof

theorem wordG_fields (op a b : Byte) :
    opField (wordG op a b) = op ∧ aField (wordG op a b) = a ∧ bField (wordG op a b) = b ∧
      zeroFieldG (wordG op a b) = 0#8 := by
  refine ⟨?_, ?_, ?_, ?_⟩ <;> apply BitVec.eq_of_getLsbD_eq <;> intro i hi <;>
    simp only [opField, aField, bField, zeroFieldG, wordG, BitVec.getLsbD_append, BitVec.getLsbD_extractLsb'] <;>
    interval_cases i <;> rfl

@[simp] theorem opField_wordG (op a b : Byte) : opField (wordG op a b) = op := (wordG_fields op a b).1
@[simp] theorem aField_wordG (op a b : Byte) : aField (wordG op a b) = a := (wordG_fields op a b).2.1
@[simp] theorem bField_wordG (op a b : Byte) : bField (wordG op a b) = b := (wordG_fields op a b).2.2.1
@[simp] theorem zeroFieldG_wordG (op a b : Byte) : zeroFieldG (wordG op a b) = 0#8 := (wordG_fields op a b).2.2.2

theorem wordZ_fields (op : Byte) : opField (wordZ op) = op ∧ zeroFieldZ (wordZ op) = 0#24 := by
  refine ⟨?_, ?_⟩ <;> apply BitVec.eq_of_getLsbD_eq <;> intro i hi <;>
    simp only [opField, zeroFieldZ, wordZ, BitVec.getLsbD_append, BitVec.getLsbD_extractLsb'] <;>
    interval_cases i <;> rfl

@[simp] theorem opField_wordZ (op : Byte) : opField (wordZ op) = op := (wordZ_fields op).1
@[simp] theorem zeroFieldZ_wordZ (op : Byte) : zeroFieldZ (wordZ op) = 0#24 := (wordZ_fields op).2

/-- A 32-bit word given by all its bits in the table's numbering is the word itself. -/
@[simp] theorem tableWord_toNat (w : Word) : tableWord 32 w.toNat = w := by
  apply BitVec.eq_of_toNat_eq
  have := w.isLt
  simp only [tableWord, BitVec.toNat_ofNat]
  omega

end Sys2Proof
end

