-- ==== Sys2Proof/Laws/Step.lean ====
section
/-! SUPPORT. What one step does for each kind of bus transaction. -/

namespace Sys2Proof.Machine

theorem exec_next (i : Instr) (s : State) : exec i s = .next (if s.fatal then s else ruleOf i s) := by
  rw [exec_eq_command]; rfl

theorem step_read {s : State} {rest : List Input} {a : Addr} {z : Size} (h : s.inputs = .bus (.read a z) :: rest) :
    step s = .next (answered s rest (some (busRead s a z))) := by
  simp [step, takeInput, h, performTransaction]

theorem step_write_none {s : State} {rest : List Input} {a : Addr} {z : Size} {d : Word}
    (h : s.inputs = .bus (.write a z d) :: rest) (ht : targetAt s.cfg a.toNat z = none) :
    step s = .next (answered s rest (some .error)) := by
  simp [step, takeInput, h, performTransaction, ht]

theorem step_write_data {s : State} {rest : List Input} {a : Addr} {z : Size} {d : Word} {g : Target}
    (h : s.inputs = .bus (.write a z d) :: rest) (ht : targetAt s.cfg a.toNat z = some g) (hg : g ≠ .word .cmd) :
    step s = .next (writeTarget (answered s rest (some .writeOk)) d g) := by
  simp only [step, takeInput, h, performTransaction, ht]

theorem step_write_cmd {s : State} {rest : List Input} {a : Addr} {z : Size} {d : Word}
    (h : s.inputs = .bus (.write a z d) :: rest) (ht : targetAt s.cfg a.toNat z = some (.word .cmd)) :
    step s = issue d (answered s rest (some .writeOk)) := by
  simp [step, takeInput, h, performTransaction, ht]

/-- A 4-byte write to address 0 issues the command word. -/
theorem step_command {s : State} {rest : List Input} {w : Word}
    (h : s.inputs = .bus (.write 0x00000#18 .four w) :: rest) :
    step s = issue w (answered s rest (some .writeOk)) :=
  step_write_cmd h rfl

theorem issue_of_decode {w : Word} {i : Instr} (h : decode w = .ok i) (s : State) : issue w s = exec i s := by
  rw [issue, h]

theorem issue_of_fatal {s : State} (h : s.fatal = true) (d : Word) : issue d s = .next s := by
  unfold issue
  split
  · rw [exec_eq_command, command_of_fatal h]
  · rw [command_of_fatal h]

/-- While FATAL is set a legal write changes nothing (60_exceptions.md R214). -/
theorem step_write_of_fatal {s : State} {rest : List Input} {a : Addr} {z : Size} {d : Word} (hf : s.fatal = true)
    (h : s.inputs = .bus (.write a z d) :: rest) (ht : targetAt s.cfg a.toNat z ≠ none) :
    step s = .next (answered s rest (some .writeOk)) := by
  cases hg : targetAt s.cfg a.toNat z with
  | none => exact absurd hg ht
  | some g =>
    by_cases hc : g = .word .cmd
    · subst hc; rw [step_write_cmd h hg, issue_of_fatal (by exact hf)]
    · rw [step_write_data h hg hc, writeTarget_of_fatal (by exact hf)]

end Sys2Proof.Machine
end

