-- ==== Sys2Proof/Laws/Bus.lean ====
section
/-! SUPPORT. The rows of the address map as cases, and what an access to byte cells touches and answers. -/

namespace Sys2Proof.Machine

/-- An address lies in exactly one row of the address map, which says what is there (20_memory.md R61). -/
theorem elementAt_cases (c : Config) (a : Nat) :
    (a < 0x00004 ∧ elementAt c a = some (.word .cmd)) ∨
    (0x00004 ≤ a ∧ a < 0x00008 ∧ elementAt c a = some (.word .status)) ∨
    (0x00008 ≤ a ∧ a < 0x0000C ∧ elementAt c a = some (.word .aadlen)) ∨
    (0x0000C ≤ a ∧ a < 0x00010 ∧ elementAt c a = some (.word .srclen)) ∨
    (0x00010 ≤ a ∧ a < 0x00014 ∧ elementAt c a = some (.word .dstlen)) ∨
    (0x00014 ≤ a ∧ a < 0x00018 ∧ elementAt c a = some (.word .gfp)) ∨
    (0x00018 ≤ a ∧ a < 0x00020 ∧ elementAt c a = none) ∨
    (0x00020 ≤ a ∧ a < 0x00030 ∧ elementAt c a = some (.byte (.reg .keyin (a - 0x00020)))) ∨
    (0x00030 ≤ a ∧ a < 0x00040 ∧ elementAt c a = some (.byte (.reg .blkin (a - 0x00030)))) ∨
    (0x00040 ≤ a ∧ a < 0x00050 ∧ elementAt c a = some (.byte (.reg .blkout (a - 0x00040)))) ∨
    (0x00050 ≤ a ∧ a < 0x00060 ∧ elementAt c a = some (.byte (.reg .ghop (a - 0x00050)))) ∨
    (0x00060 ≤ a ∧ a < 0x00070 ∧ elementAt c a = some (.byte (.reg .ctr (a - 0x00060)))) ∨
    (0x00070 ≤ a ∧ a < 0x00080 ∧ elementAt c a = some (.byte (.reg .tagin (a - 0x00070)))) ∨
    (0x00080 ≤ a ∧ a < 0x00090 ∧ elementAt c a = some (.byte (.reg .tagout (a - 0x00080)))) ∨
    (0x00090 ≤ a ∧ a < 0x10000 ∧ elementAt c a = none) ∨
    (0x10000 ≤ a ∧ a < 0x20000 ∧ a < 0x10000 + c.bufMax ∧
      elementAt c a = some (.byte (.buf .aad (a - 0x10000)))) ∨
    (0x10000 ≤ a ∧ a < 0x20000 ∧ 0x10000 + c.bufMax ≤ a ∧ elementAt c a = none) ∨
    (0x20000 ≤ a ∧ a < 0x30000 ∧ a < 0x20000 + c.bufMax ∧
      elementAt c a = some (.byte (.buf .src (a - 0x20000)))) ∨
    (0x20000 ≤ a ∧ a < 0x30000 ∧ 0x20000 + c.bufMax ≤ a ∧ elementAt c a = none) ∨
    (0x30000 ≤ a ∧ a < 0x40000 ∧ a < 0x30000 + c.bufMax ∧
      elementAt c a = some (.byte (.buf .dst (a - 0x30000)))) ∨
    (0x30000 ≤ a ∧ a < 0x40000 ∧ 0x30000 + c.bufMax ≤ a ∧ elementAt c a = none) ∨
    (0x40000 ≤ a ∧ elementAt c a = none) := by
  generalize he : elementAt c a = e
  unfold elementAt at he
  by_cases q0 : a < 0x00004
  · rw [if_pos q0] at he
    exact .inl ⟨q0, he.symm⟩
  rw [if_neg q0] at he
  by_cases q1 : a < 0x00008
  · rw [if_pos q1] at he
    exact .inr (.inl ⟨Nat.le_of_not_lt q0, q1, he.symm⟩)
  rw [if_neg q1] at he
  by_cases q2 : a < 0x0000C
  · rw [if_pos q2] at he
    exact .inr (.inr (.inl ⟨Nat.le_of_not_lt q1, q2, he.symm⟩))
  rw [if_neg q2] at he
  by_cases q3 : a < 0x00010
  · rw [if_pos q3] at he
    exact .inr (.inr (.inr (.inl ⟨Nat.le_of_not_lt q2, q3, he.symm⟩)))
  rw [if_neg q3] at he
  by_cases q4 : a < 0x00014
  · rw [if_pos q4] at he
    exact .inr (.inr (.inr (.inr (.inl ⟨Nat.le_of_not_lt q3, q4, he.symm⟩))))
  rw [if_neg q4] at he
  by_cases q5 : a < 0x00018
  · rw [if_pos q5] at he
    exact .inr (.inr (.inr (.inr (.inr (.inl ⟨Nat.le_of_not_lt q4, q5, he.symm⟩)))))
  rw [if_neg q5] at he
  by_cases q6 : a < 0x00020
  · rw [if_pos q6] at he
    exact .inr (.inr (.inr (.inr (.inr (.inr (.inl ⟨Nat.le_of_not_lt q5, q6, he.symm⟩))))))
  rw [if_neg q6] at he
  by_cases q7 : a < 0x00030
  · rw [if_pos q7] at he
    exact .inr (.inr (.inr (.inr (.inr (.inr (.inr (.inl ⟨Nat.le_of_not_lt q6, q7, he.symm⟩)))))))
  rw [if_neg q7] at he
  by_cases q8 : a < 0x00040
  · rw [if_pos q8] at he
    exact .inr (.inr (.inr (.inr (.inr (.inr (.inr (.inr (.inl ⟨Nat.le_of_not_lt q7, q8, he.symm⟩))))))))
  rw [if_neg q8] at he
  by_cases q9 : a < 0x00050
  · rw [if_pos q9] at he
    exact .inr (.inr (.inr (.inr (.inr (.inr (.inr (.inr (.inr (.inl ⟨Nat.le_of_not_lt q8, q9, he.symm⟩)))))))))
  rw [if_neg q9] at he
  by_cases q10 : a < 0x00060
  · rw [if_pos q10] at he
    exact .inr (.inr (.inr (.inr (.inr (.inr (.inr (.inr (.inr (.inr (.inl ⟨Nat.le_of_not_lt q9, q10, he.symm⟩))))))))))
  rw [if_neg q10] at he
  by_cases q11 : a < 0x00070
  · rw [if_pos q11] at he
    exact .inr (.inr (.inr (.inr (.inr (.inr (.inr (.inr (.inr (.inr (.inr (.inl ⟨Nat.le_of_not_lt q10, q11, he.symm⟩)))))))))))
  rw [if_neg q11] at he
  by_cases q12 : a < 0x00080
  · rw [if_pos q12] at he
    exact .inr (.inr (.inr (.inr (.inr (.inr (.inr (.inr (.inr (.inr (.inr (.inr (.inl ⟨Nat.le_of_not_lt q11, q12, he.symm⟩))))))))))))
  rw [if_neg q12] at he
  by_cases q13 : a < 0x00090
  · rw [if_pos q13] at he
    exact .inr (.inr (.inr (.inr (.inr (.inr (.inr (.inr (.inr (.inr (.inr (.inr (.inr (.inl ⟨Nat.le_of_not_lt q12, q13, he.symm⟩)))))))))))))
  rw [if_neg q13] at he
  by_cases q14 : a < 0x10000
  · rw [if_pos q14] at he
    exact .inr (.inr (.inr (.inr (.inr (.inr (.inr (.inr (.inr (.inr (.inr (.inr (.inr (.inr (.inl ⟨Nat.le_of_not_lt q13, q14, he.symm⟩))))))))))))))
  rw [if_neg q14] at he
  by_cases q15 : a < 0x20000
  · rw [if_pos q15] at he
    by_cases r : a < 0x10000 + c.bufMax
    · rw [if_pos r] at he
      exact .inr (.inr (.inr (.inr (.inr (.inr (.inr (.inr (.inr (.inr (.inr (.inr (.inr (.inr (.inr (.inl ⟨Nat.le_of_not_lt q14, q15, r, he.symm⟩)))))))))))))))
    · rw [if_neg r] at he
      exact .inr (.inr (.inr (.inr (.inr (.inr (.inr (.inr (.inr (.inr (.inr (.inr (.inr (.inr (.inr (.inr (.inl ⟨Nat.le_of_not_lt q14, q15, Nat.le_of_not_lt r, he.symm⟩))))))))))))))))
  rw [if_neg q15] at he
  by_cases q16 : a < 0x30000
  · rw [if_pos q16] at he
    by_cases r : a < 0x20000 + c.bufMax
    · rw [if_pos r] at he
      exact .inr (.inr (.inr (.inr (.inr (.inr (.inr (.inr (.inr (.inr (.inr (.inr (.inr (.inr (.inr (.inr (.inr (.inl ⟨Nat.le_of_not_lt q15, q16, r, he.symm⟩)))))))))))))))))
    · rw [if_neg r] at he
      exact .inr (.inr (.inr (.inr (.inr (.inr (.inr (.inr (.inr (.inr (.inr (.inr (.inr (.inr (.inr (.inr (.inr (.inr (.inl ⟨Nat.le_of_not_lt q15, q16, Nat.le_of_not_lt r, he.symm⟩))))))))))))))))))
  rw [if_neg q16] at he
  by_cases q17 : a < 0x40000
  · rw [if_pos q17] at he
    by_cases r : a < 0x30000 + c.bufMax
    · rw [if_pos r] at he
      exact .inr (.inr (.inr (.inr (.inr (.inr (.inr (.inr (.inr (.inr (.inr (.inr (.inr (.inr (.inr (.inr (.inr (.inr (.inr (.inl ⟨Nat.le_of_not_lt q16, q17, r, he.symm⟩)))))))))))))))))))
    · rw [if_neg r] at he
      exact .inr (.inr (.inr (.inr (.inr (.inr (.inr (.inr (.inr (.inr (.inr (.inr (.inr (.inr (.inr (.inr (.inr (.inr (.inr (.inr (.inl ⟨Nat.le_of_not_lt q16, q17, Nat.le_of_not_lt r, he.symm⟩))))))))))))))))))))
  rw [if_neg q17] at he
  exact .inr (.inr (.inr (.inr (.inr (.inr (.inr (.inr (.inr (.inr (.inr (.inr (.inr (.inr (.inr (.inr (.inr (.inr (.inr (.inr (.inr (⟨Nat.le_of_not_lt q17, he.symm⟩)))))))))))))))))))))

theorem elementAt_of_byteCellAt {c : Config} {a : Nat} {x : ByteCell} (h : byteCellAt c a = some x) :
    elementAt c a = some (.byte x) := by
  unfold byteCellAt at h
  split at h <;> cases h
  assumption

/-- The cell `j` addresses further on in the same register or buffer. -/
def nextCell (j : Nat) : ByteCell → ByteCell
  | .reg r k => .reg r (k + j)
  | .buf b off => .buf b (off + j)

/-- From an aligned byte cell the next three addresses are cells of the same register or buffer. -/
theorem elementAt_add {c : Config} (hc : c.wellFormed = true) {a j : Nat} {x : ByteCell} (ha : a % 4 = 0) (hj : j < 4)
    (h : elementAt c a = some (.byte x)) : elementAt c (a + j) = some (.byte (nextCell j x)) := by
  simp only [Config.wellFormed, Bool.and_eq_true, decide_eq_true_eq] at hc
  obtain ⟨⟨-, -⟩, h3⟩ := hc
  have A := elementAt_cases c a
  have B := elementAt_cases c (a + j)
  rw [h] at A
  generalize hb : elementAt c (a + j) = y at B
  rcases A with A|A|A|A|A|A|A|A|A|A|A|A|A|A|A|A|A|A|A|A|A|A <;>
  simp only [Option.some.injEq, Element.byte.injEq, reduceCtorEq, and_false] at A <;>
  obtain ⟨p1, p2, p3, rfl⟩ := A <;>
  (rcases B with B|B|B|B|B|B|B|B|B|B|B|B|B|B|B|B|B|B|B|B|B|B <;>
  first
  | (clear h hb; omega)
  | (obtain ⟨_, _, _, rfl⟩ := B
     simp only [nextCell, Option.some.injEq, Element.byte.injEq, ByteCell.buf.injEq, true_and]
     omega)
  | (obtain ⟨_, _, rfl⟩ := B
     simp only [nextCell, Option.some.injEq, Element.byte.injEq, ByteCell.reg.injEq, true_and]
     omega))

theorem targetAt_one {c : Config} {a : Nat} {x : ByteCell} (h : elementAt c a = some (.byte x)) :
    targetAt c a .one = some (.cells [x]) := by
  simp [targetAt, byteCellAt, h]

/-- An aligned 4-byte access to byte cells touches four cells of one register or buffer. -/
theorem targetAt_four {c : Config} (hc : c.wellFormed = true) {a : Nat} {x : ByteCell} (ha : a % 4 = 0)
    (h : elementAt c a = some (.byte x)) :
    targetAt c a .four = some (.cells [x, nextCell 1 x, nextCell 2 x, nextCell 3 x]) := by
  simp [targetAt, ha, h, fourCellsAt, byteCellAt, elementAt_add hc ha (j := 1) (by decide) h,
    elementAt_add hc ha (j := 2) (by decide) h, elementAt_add hc ha (j := 3) (by decide) h]

/-- An access touches a word register only as a whole. -/
theorem targetAt_word {c : Config} {a : Nat} {z : Size} {r : WordReg} (h : targetAt c a z = some (.word r)) :
    elementAt c a = some (.word r) ∧ z = .four ∧ a % 4 = 0 := by
  cases z
  · simp [targetAt] at h
  · simp only [targetAt] at h
    split at h
    · split at h
      · cases h
        exact ⟨‹_›, rfl, ‹_›⟩
      · simp at h
      · cases h
    · cases h

/-- A 1-byte read gives the value of the cell at its address. -/
theorem busRead_one {s : State} (hs : s.fatal = false) (a : Addr) :
    busRead s a .one = match byteCellAt s.cfg a.toNat with
      | some y => .readOk ((byteCellValue s y).setWidth 32)
      | none => .error := by
  unfold busRead targetAt
  cases byteCellAt s.cfg a.toNat with
  | none => rfl
  | some y => simp [readTarget, hs, targetValue, packLanes]

/-- Lane `k` of four packed bytes is byte `k`. -/
theorem packLanes_lane (b0 b1 b2 b3 : Byte) {k : Nat} (hk : k < 4) :
    (packLanes [b0, b1, b2, b3]).extractLsb' (8 * k) 8 = [b0, b1, b2, b3].getD k 0#8 := by
  apply BitVec.eq_of_getLsbD_eq
  intro i hi
  simp only [packLanes, BitVec.getLsbD_extractLsb']
  interval_cases k <;> interval_cases i <;> simp

end Sys2Proof.Machine
end

