-- ==== Sys2Proof/Laws/PerInstr.lean ====
section
/-! SUPPORT. Family `Encoding`: a statement about every command as syntax, one lemma per constructor. -/

namespace Sys2Proof.Laws.Encoding

/-- The opcode byte of each command (30_encoding.md R94). -/
def opcode : Instr → Byte
  | .gfinit => 0x01#8
  | .gfmul _ _ => 0x02#8
  | .gfmulf _ _ => 0x03#8
  | .kload => 0x10#8
  | .kexp => 0x11#8
  | .encblk => 0x12#8
  | .hderive => 0x20#8
  | .ctrinc => 0x21#8
  | .ghmul => 0x22#8
  | .aeenc => 0x30#8
  | .aedec => 0x31#8
  | .clr => 0x3F#8

/-- The word of the command carries its opcode in bits 7:0 and zero in bits 31:24, which are reserved in both formats
(30_encoding.md R91). -/
def Statement (i : Instr) : Prop := opField (encode i) = opcode i ∧ zeroFieldG (encode i) = 0#8

theorem gfinit : Statement .gfinit := by constructor <;> rfl
theorem gfmul (a b : Byte) : Statement (.gfmul a b) := by simp [Statement, encode, opcode]
theorem gfmulf (a b : Byte) : Statement (.gfmulf a b) := by simp [Statement, encode, opcode]
theorem kload : Statement .kload := by constructor <;> rfl
theorem kexp : Statement .kexp := by constructor <;> rfl
theorem encblk : Statement .encblk := by constructor <;> rfl
theorem hderive : Statement .hderive := by constructor <;> rfl
theorem ctrinc : Statement .ctrinc := by constructor <;> rfl
theorem ghmul : Statement .ghmul := by constructor <;> rfl
theorem aeenc : Statement .aeenc := by constructor <;> rfl
theorem aedec : Statement .aedec := by constructor <;> rfl
theorem clr : Statement .clr := by constructor <;> rfl

end Sys2Proof.Laws.Encoding
end

