-- ==== Sys2Proof/Tests/Slice0.lean ====
section
/-! SUPPORT. The model's own tests: ill-formed configurations, words written out from the encoding tables, one step of
each command on values of 95_test_vectors.md, and for each obligation with hypotheses a witness that meets them. -/

namespace Sys2Proof.Tests

open Sys2Proof Sys2Proof.Machine

/-- Whether an outcome is a next state with a property. -/
def nextHas (o : Host.Outcome State Fault Refusal) (p : State → Bool) : Bool :=
  match o with
  | .next t => p t
  | .fault _ => false
  | .refused _ => false

/-- A state with one input waiting. -/
abbrev withInput (i : Input) (s : State) : State := { s with inputs := [i] }

/-- The key 00 01 … 0f of the vectors. -/
abbrev vectorKey : Block := 0x000102030405060708090a0b0c0d0e0f#128

/-- After reset and a load of the vectors' key. -/
abbrev loaded : State := { State.reset with key := vectorKey, keyValid := true }

/-- Ready for the AEENC of T-AE-1: "HELLO", no AAD. -/
abbrev hello : State :=
  memWrite { loaded with srclen := 5#32, rng := [0x000102030405060708090a0b#96] } .src 0
    [0x48#8, 0x45#8, 0x4c#8, 0x4c#8, 0x4f#8]

/-- Ready for the AEDEC of T-AE-1. -/
abbrev helloSealed : State :=
  memWrite { loaded with srclen := 17#32, tagin := 0xa2e024b704a6a091b43bbf015a7e9a41#128 } .src 0
    [0x00#8, 0x01#8, 0x02#8, 0x03#8, 0x04#8, 0x05#8, 0x06#8, 0x07#8, 0x08#8, 0x09#8, 0x0a#8, 0x0b#8,
      0xbe#8, 0x22#8, 0x30#8, 0xdb#8, 0xbd#8]

/-- After a contract violation. -/
abbrev violated : State := raiseContract State.reset

/-! ### Well-formedness: each check refuses something -/

theorem test_wf_standard : Config.standard.wellFormed = true := by decide
theorem test_wf_lowest : Config.wellFormed { bufMax := 12 } = true := by decide
theorem test_wf_too_small : Config.wellFormed { bufMax := 8 } = false := by decide
theorem test_wf_too_large : Config.wellFormed { bufMax := 65540 } = false := by decide
theorem test_wf_not_multiple_of_four : Config.wellFormed { bufMax := 4094 } = false := by decide

/-! ### Decoding: words of T-ENC-1, written out from R91 and R94 -/

theorem test_decode_gfinit : decode 0b00000000000000000000000000000001#32 = .ok .gfinit := by decide
theorem test_decode_gfmul : decode 0b00000000100000110101011100000010#32 = .ok (.gfmul 0x57#8 0x83#8) := by decide
theorem test_decode_gfmulf : decode 0b00000000000100100000000000000011#32 = .ok (.gfmulf 0x00#8 0x12#8) := by decide
theorem test_decode_kload : decode 0b00000000000000000000000000010000#32 = .ok .kload := by decide
theorem test_decode_kexp : decode 0b00000000000000000000000000010001#32 = .ok .kexp := by decide
theorem test_decode_encblk : decode 0b00000000000000000000000000010010#32 = .ok .encblk := by decide
theorem test_decode_hderive : decode 0b00000000000000000000000000100000#32 = .ok .hderive := by decide
theorem test_decode_ctrinc : decode 0b00000000000000000000000000100001#32 = .ok .ctrinc := by decide
theorem test_decode_ghmul : decode 0b00000000000000000000000000100010#32 = .ok .ghmul := by decide
theorem test_decode_aeenc : decode 0b00000000000000000000000000110000#32 = .ok .aeenc := by decide
theorem test_decode_aedec : decode 0b00000000000000000000000000110001#32 = .ok .aedec := by decide
theorem test_decode_clr : decode 0b00000000000000000000000000111111#32 = .ok .clr := by decide
theorem test_decode_unassigned :
    decode 0x00000000#32 = .error .unassignedOpcode ∧
      decode 0x00000004#32 = .error .unassignedOpcode ∧
      decode 0x00000013#32 = .error .unassignedOpcode ∧
      decode 0x00000032#32 = .error .unassignedOpcode ∧
      decode 0x0000003E#32 = .error .unassignedOpcode ∧
      decode 0x00000040#32 = .error .unassignedOpcode ∧
      decode 0x000000FF#32 = .error .unassignedOpcode := by decide
theorem test_decode_reserved :
    decode 0x00000110#32 = .error .reservedBits ∧
      decode 0x80000030#32 = .error .reservedBits ∧
      decode 0x01000002#32 = .error .reservedBits ∧
      decode 0xFF835703#32 = .error .reservedBits ∧
      decode 0x00010001#32 = .error .reservedBits := by decide

/-! ### Commands: values of 95_test_vectors.md -/

/-- T-GF-10: STATUS = 1 after GFINIT. -/
theorem test_gfinit : nextHas (exec .gfinit State.reset) fun t => statusWord t == 1#32 := by decide
/-- T-GF-1. -/
theorem test_gfmul : nextHas (exec (.gfmul 0x57#8 0x83#8) State.reset) fun t => t.gfp == 0xc1#8 && t.tblReady := by decide
/-- T-GF-6. -/
theorem test_gfmul_reduces_twice : nextHas (exec (.gfmul 0xff#8 0xfe#8) State.reset) fun t => t.gfp == 0xec#8 := by decide
/-- T-GF-8: the printed formula would give 0x10. -/
theorem test_gfmulf : nextHas (exec (.gfmulf 0x10#8 0x10#8) State.reset) fun t => t.gfp == 0x1b#8 := by decide
/-- T-GF-7. -/
theorem test_gfmulf_dense : nextHas (exec (.gfmulf 0xb6#8 0x53#8) State.reset) fun t => t.gfp == 0x36#8 := by decide
theorem test_kload :
    nextHas (exec .kload { State.reset with keyin := vectorKey }) fun t => t == loaded := by decide +kernel
/-- T-ERR-2. -/
theorem test_kload_over_key : nextHas (exec .kload loaded) fun t => statusWord t == 0x312#32 := by decide
/-- T-AES-2, round keys 1 and 10. -/
theorem test_kexp :
    nextHas (exec .kexp loaded) fun t =>
      statusWord t == 7#32 && roundKey t.rk 1 == 0xd6aa74fdd2af72fadaa678f1d6ab76fe#128 &&
        roundKey t.rk 10 == 0x13111d7fe3944a17f307a78b4d2b30c5#128 := by decide +kernel
/-- T-AES-3. -/
theorem test_encblk :
    nextHas (exec .encblk { loaded with blkin := 0x00112233445566778899aabbccddeeff#128 }) fun t =>
      t.blkout == 0x69c4e0d86a7b0430d8cdb78070b4c55a#128 := by decide +kernel
/-- P2: H of the vectors' key. -/
theorem test_hderive :
    nextHas (exec .hderive loaded) fun t =>
      t.h == 0xc6a13b37878f5b826f4f8162a1c8d879#128 && statusWord t == 0xf#32 := by decide +kernel
/-- P7: a carry across three bytes. -/
theorem test_ctrinc :
    nextHas (exec .ctrinc { State.reset with ctr := 0x000000000000000000000000ffffffff#128 }) fun t =>
      t.ctr == 0x00000000000000000000000100000000#128 := by decide
/-- T-CTR-1. -/
theorem test_ctrinc_wraps :
    nextHas (exec .ctrinc { State.reset with ctr := 0xffffffffffffffffffffffffffffffff#128 }) fun t =>
      t.ctr == 0#128 && statusWord t == 0#32 := by decide
/-- T-GH-6. -/
theorem test_ghmul :
    nextHas (exec .ghmul { State.reset with
        blkin := 0x0388dace60b6a392f328c2b971b2fe78#128, ghop := 0x66e94bd4ef8a2c3b884cfa59ca342b2e#128 }) fun t =>
      t.blkout == 0x5e2ec746917062882c85b0685353deb7#128 := by decide +kernel
/-- T-GH-4. -/
theorem test_ghmul_reduces :
    nextHas (exec .ghmul { State.reset with blkin := 1#128, ghop := 0x40000000000000000000000000000000#128 }) fun t =>
      t.blkout == 0xe1000000000000000000000000000000#128 := by decide +kernel
/-- T-AE-1. -/
theorem test_aeenc :
    nextHas (exec .aeenc hello) fun t =>
      statusWord t == 0xf#32 && t.dstlen == 17#32 && t.tagout == 0xa2e024b704a6a091b43bbf015a7e9a41#128 &&
        memRead t .dst 0 17 == [0x00#8, 0x01#8, 0x02#8, 0x03#8, 0x04#8, 0x05#8, 0x06#8, 0x07#8, 0x08#8, 0x09#8,
          0x0a#8, 0x0b#8, 0xbe#8, 0x22#8, 0x30#8, 0xdb#8, 0xbd#8] := by decide +kernel
/-- T-ERR-2: SRCLEN one over BUF_MAX - 12. -/
theorem test_aeenc_over_capacity :
    nextHas (exec .aeenc { loaded with srclen := 0x0000FFF5#32 }) fun t => statusWord t == 0x312#32 := by decide
/-- T-AE-1 opened. -/
theorem test_aedec :
    nextHas (exec .aedec helloSealed) fun t =>
      statusWord t == 0xf#32 && t.dstlen == 5#32 && t.tagout == 0#128 &&
        memRead t .dst 0 5 == [0x48#8, 0x45#8, 0x4c#8, 0x4c#8, 0x4f#8] := by decide +kernel
/-- P4: one bit of the tag flipped. -/
theorem test_aedec_bad_tag :
    nextHas (exec .aedec { helloSealed with tagin := 0xa3e024b704a6a091b43bbf015a7e9a41#128 }) fun t =>
      statusWord t == 0x20f#32 && t.dstlen == 0#32 && t.mem == helloSealed.mem := by decide +kernel
/-- T-CLR-1. -/
theorem test_clr : nextHas (exec .clr { loaded with tblReady := true, gft := .complete, srclen := 5#32 }) fun t =>
    statusWord t == 1#32 && t.key == 0#128 && t.srclen == 0#32 := by decide

/-! ### The port -/

/-- T-BUS-1: lanes of a 4-byte write, then a 1-byte read. -/
theorem test_bus_lanes :
    nextHas (step (withInput (.bus (.write 0x00030#18 .four 0x33221100#32)) State.reset)) fun t =>
      busRead t 0x00031#18 .one == .readOk 0x11#32 && t.blkin == 0x00112233000000000000000000000000#128 := by decide +kernel
/-- T-BUS-2: an error changes nothing. -/
theorem test_bus_misaligned :
    nextHas (step (withInput (.bus (.write 0x20002#18 .four 0x11111111#32)) State.reset)) fun t =>
      t == { State.reset with answer := some .error } := by decide +kernel
/-- T-BUS-2: a 1-byte write to CMD runs nothing. -/
theorem test_bus_byte_to_cmd :
    nextHas (step (withInput (.bus (.write 0x00000#18 .one 1#32)) State.reset)) fun t =>
      t == { State.reset with answer := some .error } := by decide +kernel
/-- T-BUS-4: bytes at offsets ≥ DSTLEN read as zero within one word. -/
theorem test_bus_dstlen_inside_word :
    busRead (memWrite { State.reset with dstlen := 1#32 } .dst 0 [0xbd#8, 0x01#8, 0x02#8, 0x03#8]) 0x30000#18 .four =
      .readOk 0x000000bd#32 := by decide
/-- P6: gated reads, and STATUS still readable. -/
theorem test_bus_fatal_gate :
    busRead { violated with gfp := 0xc1#8 } 0x00014#18 .four = .readOk 0#32 ∧
      busRead violated 0x00004#18 .four = .readOk 0x310#32 := by decide
/-- P6: a command in FATAL changes nothing. -/
theorem test_step_command_in_fatal :
    nextHas (step (withInput (commandWrite 0x0000003F#32) violated)) fun t =>
      t == { violated with answer := some .writeOk } := by decide +kernel
/-- P6: reset leaves FATAL. -/
theorem test_step_reset :
    nextHas (step (withInput .reset violated)) fun t => statusWord t == 0#32 && t.inputs == [] := by decide
/-- A word placed by `withFetchWord` runs in the next step from reset. -/
theorem test_step_fetch_word :
    nextHas (step (State.reset.withFetchWord 24 0x835702)) fun t => t.gfp == 0xc1#8 && t.inputs == [] := by decide

/-! ### Witnesses: for each obligation with hypotheses, concrete values that meet them -/

/-- A state with no cache, no failure and nothing released meets the invariant. -/
theorem cold_inv {s : State} (hc : s.cfg.wellFormed = true) (hk : s.keyValid = false → s.key = 0#128)
    (hf : s.tblReady = false ∧ s.rkValid = false ∧ s.hValid = false ∧ s.fatal = false)
    (hr : s.result = .ok ∧ s.rk = 0#1408 ∧ s.h = 0#128 ∧ s.dstlen = 0#32)
    (hm : Memory.wf s.mem ∧ ∀ c ∈ s.mem, inBufferWindow s.cfg c.1 = true) : s.Inv := by
  obtain ⟨ht, hrk, hh, hfa⟩ := hf
  obtain ⟨hres, h1, h2, h3⟩ := hr
  refine ⟨hc, ⟨?_, ?_, ?_, ?_⟩, ⟨?_, ?_, ?_, hk, fun _ => h1, fun _ => h2⟩, ⟨hm.1, hm.2, ?_, ?_⟩⟩ <;>
    simp [State.tableInv, ht, hrk, hh, hfa, hres, h3]

theorem loaded_inv : loaded.Inv := cold_inv (by decide) nofun (by decide) ⟨rfl, rfl, rfl, rfl⟩ ⟨.nil, nofun⟩
theorem hello_inv : hello.Inv := cold_inv (by decide) nofun (by decide) ⟨rfl, rfl, rfl, rfl⟩ (by decide)
theorem helloSealed_inv : helloSealed.Inv := cold_inv (by decide) nofun (by decide) ⟨rfl, rfl, rfl, rfl⟩ (by decide)

/-- `helloSealed` with bit 0 of the first byte of the IV flipped (P4). -/
abbrev helloOtherIv : State := { helloSealed with mem := memoryWrite helloSealed.mem 0x20000 0x01#8 }
theorem helloOtherIv_inv : helloOtherIv.Inv := cold_inv (by decide) nofun (by decide) ⟨rfl, rfl, rfl, rfl⟩ (by decide)

/-- All three caches filled. -/
abbrev warm : State := cached loaded
theorem warm_inv : warm.Inv :=
  ⟨by decide, ⟨fun _ => rfl, fun _ => rfl, fun _ => rfl, by decide⟩,
    ⟨fun _ => rfl, fun _ => rfl, fun _ => rfl, nofun, nofun, nofun⟩, ⟨.nil, nofun, by decide, by decide⟩⟩

theorem hello_sealed : ∃ t, exec .aeenc hello = .next t ∧ t.result = .ok := ⟨_, exec_next _ _, by decide +kernel⟩
theorem helloSealed_opened : ∃ t, exec .aedec helloSealed = .next t ∧ t.result = .ok :=
  ⟨_, exec_next _ _, by decide +kernel⟩

theorem test_witness_DecodeEncodeRoundTrip : (Instr.gfmul 0xff#8 0x00#8).wellFormed = true := by decide
theorem test_witness_EncodeOfDecodedWord : decode 0x00FF0002#32 = .ok (.gfmul 0x00#8 0xff#8) := by decide
theorem test_witness_StepRunsDecodedCommand :
    decode 0x00000021#32 = .ok .ctrinc ∧
      (withInput (commandWrite 0x00000021#32) loaded).inputs = .bus (.write 0x00000#18 .four 0x00000021#32) :: [] := by
  decide
theorem test_witness_IllegalWordRaisesContract :
    State.reset.safe ∧ ∀ i : Instr, encode i ≠ 0x00000110#32 := by
  refine ⟨rfl, fun i h => ?_⟩
  cases i
  case gfmul =>
    have e := congrArg opField h
    rw [encode, opField_wordG] at e
    exact absurd e (by decide)
  case gfmulf =>
    have e := congrArg opField h
    rw [encode, opField_wordG] at e
    exact absurd e (by decide)
  all_goals exact absurd h (by decide)
/-- One witness for each clause: a target and none for a write, none, STATUS and another target for a read, a step. -/
theorem test_witness_ContractViolationIsStickyAndGatesThePort :
    violated.fatal = true ∧ targetAt violated.cfg 0x00018 .four = none ∧ targetAt violated.cfg 0x00000 .four ≠ none ∧
      targetAt violated.cfg 0x00004 .four = some (.word .status) ∧
      targetAt violated.cfg 0x00014 .four = some (.word .gfp) ∧
      (∃ t, step (withInput (commandWrite 0x0000003F#32) violated) = .next t) ∧
      (withInput (commandWrite 0x0000003F#32) violated).inputs.head? ≠ some .reset :=
  ⟨rfl, by decide, by decide, by decide, by decide, ⟨_, step_write_of_fatal rfl rfl (by decide)⟩, by decide⟩
/-- The first and the last address of every row, for the largest and the smallest BUF_MAX. -/
theorem test_witness_AddressMapRows_registers :
    elementAt .standard 0x00003 = some (.word .cmd) ∧ elementAt .standard 0x00004 = some (.word .status) ∧
      elementAt .standard 0x0000B = some (.word .aadlen) ∧ elementAt .standard 0x0000C = some (.word .srclen) ∧
      elementAt .standard 0x00013 = some (.word .dstlen) ∧ elementAt .standard 0x00017 = some (.word .gfp) ∧
      elementAt .standard 0x00018 = none ∧ elementAt .standard 0x0001F = none ∧
      elementAt .standard 0x00020 = some (.byte (.reg .keyin 0)) ∧
      elementAt .standard 0x0003F = some (.byte (.reg .blkin 15)) ∧
      elementAt .standard 0x00040 = some (.byte (.reg .blkout 0)) ∧
      elementAt .standard 0x0005F = some (.byte (.reg .ghop 15)) ∧
      elementAt .standard 0x00060 = some (.byte (.reg .ctr 0)) ∧
      elementAt .standard 0x0007F = some (.byte (.reg .tagin 15)) ∧
      elementAt .standard 0x0008F = some (.byte (.reg .tagout 15)) ∧ elementAt .standard 0x00090 = none := by
  decide +kernel
theorem test_witness_AddressMapRows_buffers :
    Config.standard.wellFormed = true ∧ elementAt .standard 0x0FFFF = none ∧
      elementAt .standard 0x1FFFF = some (.byte (.buf .aad 65535)) ∧
      elementAt .standard 0x20000 = some (.byte (.buf .src 0)) ∧
      elementAt .standard 0x3FFFF = some (.byte (.buf .dst 65535)) ∧ elementAt .standard 0x40000 = none ∧
      Config.wellFormed { bufMax := 12 } = true ∧
      elementAt { bufMax := 12 } 0x1000B = some (.byte (.buf .aad 11)) ∧ elementAt { bufMax := 12 } 0x1000C = none ∧
      elementAt { bufMax := 12 } 0x2000C = none ∧ elementAt { bufMax := 12 } 0x3000C = none := by
  decide +kernel
/-- The four bad forms, the fourth with a BUF_MAX outside its range, and a good one. -/
theorem test_witness_BadAccessAnswersErrorAndChangesNothing :
    badAccess .standard 0x20002 .four ∧ badAccess .standard 0x00000 .one ∧ badAccess .standard 0x00018 .one ∧
      badAccess { bufMax := 14 } 0x1000C .four ∧ ¬ badAccess .standard 0x0008C .four ∧
      Config.standard.wellFormed = true ∧ 0x0008C % 4 = 0 := by
  refine ⟨.inl (by decide), .inr (.inl ⟨rfl, .cmd, rfl⟩), .inr (.inr (.inl (by decide))),
    .inr (.inr (.inr ⟨rfl, 2, by decide, by decide⟩)), ?_, by decide, by decide⟩
  rintro (⟨-, h⟩ | ⟨h, -⟩ | h | ⟨-, k, hk, h⟩)
  · exact absurd h (by decide)
  · exact absurd h (by decide)
  · exact absurd h (by decide)
  · interval_cases k <;> exact absurd h (by decide)
theorem test_witness_OnlyCommandWritesHaveSideEffects :
    (withInput (.bus (.read 0x00030#18 .one)) State.reset).inputs = .bus (.read 0x00030#18 .one) :: [] ∧
      targetAt State.reset.cfg (0x00008#18).toNat .four ≠ some (.word .cmd) ∧
      ∃ t, step { State.reset with inputs := [.bus (.write 0x00008#18 .four 7#32), .bus (.write 0x00008#18 .four 7#32)] } =
        .next t :=
  ⟨rfl, by decide, _, step_write_data rfl (g := .word .aadlen) (by decide) (by decide)⟩
/-- The ends of the four ranges, for 1-byte and for 4-byte writes. -/
theorem test_witness_HostWritesReadBackLittleEndian :
    State.reset.safe ∧ State.reset.cfg.wellFormed = true ∧ State.reset.cfg.bufMax = 65536 ∧
      (∀ a ∈ [0x00030#18, 0x0003F#18, 0x00050#18, 0x0007F#18, 0x10000#18, 0x1FFFF#18, 0x20000#18, 0x2FFFF#18,
          0x0003C#18, 0x0007C#18, 0x1FFFC#18, 0x2FFFC#18],
        (0x30 ≤ a.toNat ∧ a.toNat < 0x40) ∨ (0x50 ≤ a.toNat ∧ a.toNat < 0x80) ∨
          (0x10000 ≤ a.toNat ∧ a.toNat < 0x10000 + 65536) ∨ (0x20000 ≤ a.toNat ∧ a.toNat < 0x20000 + 65536)) ∧
      (∀ a ∈ [0x00030#18, 0x0003C#18, 0x0007C#18, 0x1FFFC#18, 0x2FFFC#18], a.toNat % 4 = 0) ∧
      (withInput (.bus (.write 0x2FFFC#18 .four 1#32)) State.reset).inputs = .bus (.write 0x2FFFC#18 .four 1#32) :: [] := by
  refine ⟨rfl, by decide, rfl, ?_, ?_, rfl⟩ <;> simp
/-- The last byte of KEYIN and its last word. -/
theorem test_witness_KeyinWriteStagesKeyBytes :
    State.reset.safe ∧ 0x20 ≤ (0x0002F#18).toNat ∧ (0x0002F#18).toNat < 0x30 ∧
      (withInput (.bus (.write 0x0002F#18 .one 1#32)) State.reset).inputs = .bus (.write 0x0002F#18 .one 1#32) :: [] ∧
      0x20 ≤ (0x0002C#18).toNat ∧ (0x0002C#18).toNat < 0x30 ∧ (0x0002C#18).toNat % 4 = 0 ∧
      (withInput (.bus (.write 0x0002C#18 .four 1#32)) State.reset).inputs = .bus (.write 0x0002C#18 .four 1#32) :: [] := by
  decide
theorem test_witness_LengthRegistersHoldAnyWord :
    State.reset.safe ∧
      (withInput (.bus (.write 0x00008#18 .four 0xFFFFFFFF#32)) State.reset).inputs =
        .bus (.write 0x00008#18 .four 0xFFFFFFFF#32) :: [] := by
  decide
/-- One target for each clause: a write to DSTBUF, reads of KEYIN, of DSTBUF by both sizes, of CTR in FATAL, of STATUS. -/
theorem test_witness_AccessRightsOfThePort :
    targetAt State.reset.cfg (0x30000#18).toNat .four =
        some (.cells [.buf .dst 0, .buf .dst 1, .buf .dst 2, .buf .dst 3]) ∧
      targetAt State.reset.cfg (0x0002F#18).toNat .one = some (.cells [.reg .keyin 15]) ∧
      targetAt State.reset.cfg (0x3FFFF#18).toNat .one = some (.cells [.buf .dst 65535]) ∧
      targetAt State.reset.cfg (0x00060#18).toNat .four =
        some (.cells [.reg .ctr 0, .reg .ctr 1, .reg .ctr 2, .reg .ctr 3]) ∧
      targetAt State.reset.cfg (0x00004#18).toNat .four = some (.word .status) ∧ State.reset.safe ∧
      violated.fatal = true := by
  decide +kernel
/-- Two states that differ in KEY and in a byte of DSTBUF beyond DSTLEN. -/
theorem test_witness_HiddenStateIsNotReadable :
    State.SameVisible loaded (memWrite { loaded with key := 0#128 } .dst 0 [0x01#8]) ∧
      loaded ≠ memWrite { loaded with key := 0#128 } .dst 0 [0x01#8] := by
  refine ⟨⟨rfl, rfl, rfl, rfl, rfl, rfl, rfl, rfl, rfl, rfl, rfl, rfl, rfl, ?_, ?_, nofun⟩, by decide +kernel⟩
  · exact fun off h => (cellByte_memWrite_outside _ _ _ _ (.inl (by simp only [spaceBase]; omega))).symm
  · exact fun off h => (cellByte_memWrite_outside _ _ _ _ (.inl (by simp only [spaceBase]; omega))).symm
theorem test_witness_ResetInputGivesResetState : (withInput .reset violated).inputs = .reset :: [] := rfl
theorem test_witness_StepKeepsInvariant :
    loaded.Inv ∧ ∃ t, step loaded = .next t := ⟨loaded_inv, loaded, rfl⟩
/-- A command while FATAL is set, and one after the table is built. -/
theorem test_witness_OnlyResetClearsFatalAndTable :
    (∃ t, step (withInput (commandWrite 0x00000001#32) violated) = .next t) ∧ violated.fatal = true ∧
      (∃ t, step (withInput (commandWrite 0x00000001#32) warm) = .next t) ∧ warm.tblReady = true ∧
      (withInput (commandWrite 0x00000001#32) warm).inputs.head? ≠ some .reset :=
  ⟨⟨_, (step_command rfl).trans ((issue_of_decode (by decide) _).trans (exec_next .gfinit _))⟩, rfl,
    ⟨_, (step_command rfl).trans ((issue_of_decode (by decide) _).trans (exec_next .gfinit _))⟩, rfl, by decide⟩
theorem test_witness_KeyIsConstantWithinAnInstance :
    (∃ t, step (withInput (commandWrite 0x00000010#32) loaded) = .next t) ∧ loaded.keyValid = true ∧
      (withInput (commandWrite 0x00000010#32) loaded).inputs.head? ≠ some .reset ∧
      (withInput (commandWrite 0x00000010#32) loaded).inputs.head? ≠ some (.bus (.write 0x00000#18 .four 0x3F#32)) ∧
      (withInput (commandWrite 0x00000021#32) loaded).inputs.head? ≠ some (.bus (.write 0x00000#18 .four 0x10#32)) :=
  ⟨⟨_, (step_command rfl).trans ((issue_of_decode (by decide) _).trans (exec_next .kload _))⟩, rfl, by decide, by decide, by decide⟩
theorem test_witness_OnlyAeencSamplesTheRandomSource :
    (∃ t, exec .aeenc hello = .next t) ∧ hello.safe ∧ hello.keyValid = true ∧
      hello.aadlen.toNat ≤ hello.cfg.bufMax ∧ hello.srclen.toNat + 12 ≤ hello.cfg.bufMax ∧
      (∃ t, exec .ctrinc hello = .next t) ∧ Instr.ctrinc ≠ .aeenc :=
  ⟨⟨_, exec_next _ _⟩, rfl, rfl, by decide, by decide, ⟨_, exec_next _ _⟩, by decide⟩
/-- CTRINC meets the premise of every clause but its own and that of GFT; KLOAD meets those. -/
theorem test_witness_CommandsWriteOnlyTheirState :
    (∃ t, exec .ctrinc loaded = .next t) ∧ (∃ t, exec .kload loaded = .next t) ∧
      Instr.ctrinc ∉ [.kload, .kexp, .encblk, .hderive, .aeenc, .aedec] ∧
      Instr.kload ∈ [.kload, .ctrinc, .ghmul, .clr] ∧ Instr.kload ≠ .ctrinc ∧ Instr.kload ≠ .clr :=
  ⟨⟨_, exec_next _ _⟩, ⟨_, exec_next _ _⟩, by decide, by decide, by decide, by decide⟩
theorem test_witness_NonAeadCommandsLeaveMemory :
    Instr.clr ≠ .aeenc ∧ Instr.clr ≠ .aedec ∧ ∃ t, exec .clr hello = .next t :=
  ⟨by decide, by decide, _, exec_next _ _⟩
theorem test_witness_NoCommandWritesTheInputBuffers : ∃ t, exec .aeenc hello = .next t := ⟨_, exec_next _ _⟩
theorem test_witness_GfinitBuildsTableOnce :
    State.reset.safe ∧ State.reset.tblReady = false ∧ warm.safe ∧ warm.tblReady = true := ⟨rfl, rfl, rfl, rfl⟩
theorem test_witness_GfmulLeavesProduct : State.reset.safe ∧ State.reset.tableInv ∧ warm.safe ∧ warm.tableInv :=
  ⟨rfl, nofun, rfl, fun _ => rfl⟩
theorem test_witness_GfmulfLeavesSameProduct :
    (0x0f#8).toNat < 16 ∧ State.reset.safe ∧ State.reset.tableInv ∧ warm.safe ∧ warm.tableInv :=
  ⟨by decide, rfl, nofun, rfl, fun _ => rfl⟩
theorem test_witness_GfMultiplierLaws : (0xff#8 : Byte) ≠ 0#8 ∧ gfMul .complete 0xff#8 0x1c#8 = 1#8 := by decide
theorem test_witness_SboxIsInverseThenAffine :
    sbox 0x00#8 = sbox 0x00#8 ∧ (0x53#8 : Byte) ≠ 0#8 ∧ gfMul .complete 0x53#8 0xCA#8 = 1#8 ∧ sbox 0x53#8 = 0xed#8 := by
  decide
theorem test_witness_KeyScheduleRecurrence :
    4 ≤ 4 ∧ 4 ≤ 43 ∧ 43 ≤ 43 ∧ scheduleWord (expandKey vectorKey) 4 = 0xd6aa74fd#32 := by decide +kernel
theorem test_witness_RoundTransformsByteByByte :
    (15 < 16 ∧ 3 < 4 ∧ 10 ≤ 10) ∧ shiftRows 0x63cab7040953d051cd60e0e7ba70e18c#128 = 0x6353e08c0960e104cd70b751bacad0e7#128 ∧
      mixColumns .complete 0x6353e08c0960e104cd70b751bacad0e7#128 = 0x5f72641557f5bc92f7be3b291db9f91a#128 := by
  decide +kernel
theorem test_witness_KloadTakesStagedKey :
    State.reset.safe ∧ State.reset.keyValid = false ∧ loaded.safe ∧ loaded.keyValid = true := ⟨rfl, rfl, rfl, rfl⟩
theorem test_witness_KexpExpandsKey :
    State.reset.keyValid = false ∧ (loaded.safe ∧ loaded.CacheInv ∧ loaded.keyValid = true) ∧
      warm.safe ∧ warm.CacheInv ∧ warm.keyValid = true :=
  ⟨rfl, ⟨rfl, loaded_inv.caches, rfl⟩, rfl, warm_inv.caches, rfl⟩
theorem test_witness_EncblkEncryptsBlkin :
    State.reset.keyValid = false ∧ (loaded.safe ∧ loaded.CacheInv ∧ loaded.keyValid = true) ∧
      warm.safe ∧ warm.CacheInv ∧ warm.keyValid = true :=
  ⟨rfl, ⟨rfl, loaded_inv.caches, rfl⟩, rfl, warm_inv.caches, rfl⟩
theorem test_witness_KeylessCommandsRaiseContract :
    State.reset.safe ∧ State.reset.keyValid = false ∧ Instr.kexp ∈ [.kexp, .encblk, .hderive, .aeenc, .aedec] ∧
      Instr.aedec ∈ [.kexp, .encblk, .hderive, .aeenc, .aedec] := by decide
theorem test_witness_HderiveDerivesSubkey :
    (loaded.safe ∧ loaded.CacheInv ∧ loaded.FlagInv ∧ loaded.keyValid = true) ∧
      warm.safe ∧ warm.CacheInv ∧ warm.FlagInv ∧ warm.keyValid = true :=
  ⟨⟨rfl, loaded_inv.caches, loaded_inv.flags, rfl⟩, rfl, warm_inv.caches, warm_inv.flags, rfl⟩
theorem test_witness_CtrincAddsOne : State.reset.safe := rfl
/-- Byte 12 gains one over three bytes 0xFF; byte 0 does not, byte 12 being other than 0xFF. -/
theorem test_witness_CounterCarriesAcrossAllBytes :
    (∀ j, 12 < j → j < 16 → blockByte 0x00000000000000000000000000ffffff#128 j = 0xFF#8) ∧
      blockByte 0x00000000000000000000000000ffffff#128 12 ≠ 0xFF#8 := by
  refine ⟨fun j h1 h2 => ?_, by decide⟩
  interval_cases j <;> decide
theorem test_witness_GhmulLeavesProduct : State.reset.safe := rfl
theorem test_witness_ShiftRightByBytesAndBits :
    1 ≤ 1 ∧ 15 < 16 ∧ 126 < 127 ∧ shiftRight1 0x01000000000000000000000000000000#128 = 0x00800000000000000000000000000000#128 := by
  decide
theorem test_witness_GhashBlocksAndLengths :
    0 < (blocks16 [0x48#8]).length ∧ 15 < 16 ∧ 2 ^ 61 - 1 < 2 ^ 61 := by decide
theorem test_witness_CtrXorIsCounterMode : 16 < (List.replicate 17 0x00#8 : List Byte).length := by decide
/-- No key; AADLEN and SRCLEN one over; and the largest lengths AEENC takes. -/
theorem test_witness_AeencSealsSrcbuf :
    (State.reset.Inv ∧ State.reset.safe ∧ State.reset.keyValid = false) ∧
      (({ loaded with srclen := 65525#32 } : State).Inv ∧ 65536 - 12 < (65525#32).toNat) ∧
      ({ loaded with aadlen := 65536#32, srclen := 65524#32 } : State).Inv ∧ (65536#32).toNat ≤ 65536 ∧
      (65524#32).toNat ≤ 65536 - 12 ∧ loaded.safe ∧ loaded.keyValid = true ∧ loaded.cfg.bufMax = 65536 :=
  ⟨⟨cold_inv (by decide) (fun _ => rfl) (by decide) ⟨rfl, rfl, rfl, rfl⟩ ⟨.nil, nofun⟩, rfl, rfl⟩,
    ⟨cold_inv (by decide) nofun (by decide) ⟨rfl, rfl, rfl, rfl⟩ ⟨.nil, nofun⟩, by decide⟩,
    cold_inv (by decide) nofun (by decide) ⟨rfl, rfl, rfl, rfl⟩ ⟨.nil, nofun⟩, by decide, by decide, rfl, rfl, rfl⟩
/-- SRCLEN one over, 11, and 12 with the tag that opens and one that does not. -/
theorem test_witness_AedecOpensSrcbuf :
    (({ loaded with srclen := 65537#32 } : State).Inv ∧ 65536 < (65537#32).toNat) ∧
      (({ loaded with srclen := 11#32 } : State).Inv ∧ (11#32).toNat < 12) ∧
      helloSealed.Inv ∧ helloSealed.safe ∧ helloSealed.keyValid = true ∧ 12 ≤ helloSealed.srclen.toNat ∧
      (∃ t, exec .aedec helloSealed = .next t ∧ t.result = .ok) ∧
      ∃ t, exec .aedec { helloSealed with tagin := 0#128 } = .next t ∧ t.result = .authFail :=
  ⟨⟨cold_inv (by decide) nofun (by decide) ⟨rfl, rfl, rfl, rfl⟩ ⟨.nil, nofun⟩, by decide⟩,
    ⟨cold_inv (by decide) nofun (by decide) ⟨rfl, rfl, rfl, rfl⟩ ⟨.nil, nofun⟩, by decide⟩,
    helloSealed_inv, rfl, rfl, by decide, helloSealed_opened, _, exec_next _ _, by decide +kernel⟩
theorem test_witness_NoReleaseOnAuthFailure :
    ({ helloSealed with tagin := 0#128 } : State).safe ∧
      (∃ t, exec .aedec { helloSealed with tagin := 0#128 } = .next t ∧ t.result = .authFail) ∧
      ∃ t, exec .aedec helloSealed = .next t ∧ t.result = .ok :=
  ⟨rfl, ⟨_, exec_next _ _, by decide +kernel⟩, helloSealed_opened⟩
theorem test_witness_EveryOtherTagIsRejected :
    helloSealed.Inv ∧ helloSealed.safe ∧ (∃ t, exec .aedec helloSealed = .next t ∧ t.result = .ok) ∧
      (0#128 : Block) ≠ helloSealed.tagin :=
  ⟨helloSealed_inv, rfl, helloSealed_opened, by decide⟩
theorem test_witness_TagDoesNotCoverTheIv :
    helloSealed.Inv ∧ helloOtherIv.Inv ∧ helloSealed.safe ∧
      (∃ t, exec .aedec helloSealed = .next t ∧ t.result = .ok) ∧
      helloOtherIv = { helloSealed with mem := helloOtherIv.mem } ∧ helloOtherIv ≠ helloSealed ∧
      (∀ off < 0x10000, bufferByte helloOtherIv .aad off = bufferByte helloSealed .aad off) ∧
      ∀ off, 12 ≤ off → off < 0x10000 → bufferByte helloOtherIv .src off = bufferByte helloSealed .src off := by
  refine ⟨helloSealed_inv, helloOtherIv_inv, rfl, helloSealed_opened, rfl, by decide +kernel, fun off h => ?_,
    fun off h1 h2 => ?_⟩
  · exact cellByte_congr (memoryRead_memoryWrite_ne _ _ (by simp only [spaceBase]; omega)) rfl
  · exact cellByte_congr (memoryRead_memoryWrite_ne _ _ (by simp only [spaceBase]; omega)) rfl
theorem test_witness_AeencThenAedecGivesPlaintextBack :
    hello.Inv ∧ hello.safe ∧ helloSealed.Inv ∧ helloSealed.safe ∧ helloSealed.keyValid = true ∧
      helloSealed.key = hello.key ∧ helloSealed.cfg = hello.cfg ∧ helloSealed.aadlen = hello.aadlen ∧
      memRead helloSealed .aad 0 hello.aadlen.toNat = memRead hello .aad 0 hello.aadlen.toNat ∧
      ∃ t, exec .aeenc hello = .next t ∧ t.result = .ok ∧ helloSealed.srclen = t.dstlen ∧
        helloSealed.tagin = t.tagout ∧ memRead helloSealed .src 0 t.dstlen.toNat = memRead t .dst 0 t.dstlen.toNat :=
  ⟨hello_inv, rfl, helloSealed_inv, rfl, rfl, rfl, rfl, rfl, rfl, _, exec_next _ _, by decide +kernel, by decide +kernel,
    by decide +kernel, by decide +kernel⟩
theorem test_witness_ClrLeavesResetStateButTableAndBuffers : warm.safe ∧ violated.fatal = true := ⟨rfl, rfl⟩
/-- Both ends of a register and of a buffer. -/
theorem test_witness_PortReadsGiveStoredValues :
    hello.safe ∧ hello.cfg.wellFormed = true ∧
      (hello.tagout, 0x80) ∈ [(hello.blkin, 0x30), (hello.blkout, 0x40), (hello.ghop, 0x50), (hello.ctr, 0x60),
        (hello.tagin, 0x70), (hello.tagout, 0x80)] ∧
      15 < 16 ∧ 3 < 4 ∧ (Space.src, 0x20000) ∈ [(.aad, 0x10000), (.src, 0x20000)] ∧ 65532 < hello.cfg.bufMax ∧
      65532 % 4 = 0 ∧ 65535 < hello.cfg.bufMax :=
  ⟨rfl, by decide, by simp, by decide, by decide, by simp, by decide, by decide, by decide⟩

end Sys2Proof.Tests
end

section
/-! PROOFS. The bus port (20_memory.md): the rows of the address map that the access rules name, what an access touches,
and which accesses are errors. -/

namespace Sys2Proof.Machine

/-! ### Rows of the address map (R61) -/

/-- The word registers fill the addresses below 0x18. -/
theorem elementAt_word_iff {c : Config} {a : Nat} : (∃ r, elementAt c a = some (.word r)) ↔ a < 0x18 := by
  fun_cases elementAt c a <;> simp [*] <;> omega

theorem elementAt_cmd_iff {c : Config} {a : Nat} : elementAt c a = some (.word .cmd) ↔ a < 0x04 := by
  fun_cases elementAt c a <;> simp [*]

theorem elementAt_status_iff {c : Config} {a : Nat} : elementAt c a = some (.word .status) ↔ 0x04 ≤ a ∧ a < 0x08 := by
  fun_cases elementAt c a <;> simp [*]
  omega

theorem elementAt_none_iff {c : Config} {a : Nat} :
    elementAt c a = none ↔
      (0x18 ≤ a ∧ a < 0x20) ∨ (0x90 ≤ a ∧ a < 0x10000) ∨ (0x10000 + c.bufMax ≤ a ∧ a < 0x20000) ∨
        (0x20000 ≤ a ∧ 0x20000 + c.bufMax ≤ a ∧ a < 0x30000) ∨ (0x30000 ≤ a ∧ 0x30000 + c.bufMax ≤ a) ∨ 0x40000 ≤ a := by
  fun_cases elementAt c a <;> simp [*] <;> omega

theorem elementAt_keyin {c : Config} {a : Nat} (h : 0x20 ≤ a) (h' : a < 0x30) :
    elementAt c a = some (.byte (.reg .keyin (a - 0x20))) := by
  simp (disch := omega) only [elementAt, if_neg, if_pos]

/-- Whatever is mapped from 0x30000 on is a byte of DSTBUF. -/
theorem eq_dst_of_elementAt {c : Config} {a : Nat} {e : Element} (h : 0x30000 ≤ a) (he : elementAt c a = some e) :
    e = .byte (.buf .dst (a - 0x30000)) := by
  revert he
  fun_cases elementAt c a <;> first | omega | simp [eq_comm]

/-! ### The bytes an access touches -/

theorem byteCellAt_eq_some_iff {c : Config} {a : Nat} {x : ByteCell} :
    byteCellAt c a = some x ↔ elementAt c a = some (.byte x) := by
  fun_cases byteCellAt c a <;> simp [*]

theorem byteCellAt_eq_none_iff {c : Config} {a : Nat} :
    byteCellAt c a = none ↔ elementAt c a = none ∨ ∃ r, elementAt c a = some (.word r) := by
  fun_cases byteCellAt c a <;> simp [*]

theorem fourCellsAt_eq_none_iff {c : Config} {a : Nat} :
    fourCellsAt c a = none ↔ ∃ k < 4, byteCellAt c (a + k) = none := by
  fun_cases fourCellsAt c a
  case case1 c0 c1 c2 c3 h3 h2 h1 h0 =>
    refine iff_of_false nofun fun ⟨k, hk, hn⟩ => ?_
    interval_cases k <;> simp_all
  case case2 h =>
    refine iff_of_true rfl (by_contra fun hn => ?_)
    have some_at (k : Nat) (hk : k < 4) : ∃ x, byteCellAt c (a + k) = some x :=
      Option.ne_none_iff_exists'.1 fun e => hn ⟨k, hk, e⟩
    obtain ⟨x0, h0⟩ := some_at 0 (by decide)
    obtain ⟨x1, h1⟩ := some_at 1 (by decide)
    obtain ⟨x2, h2⟩ := some_at 2 (by decide)
    obtain ⟨x3, h3⟩ := some_at 3 (by decide)
    exact h x0 x1 x2 x3 h0 h1 h2 h3

theorem fourCellsAt_eq_some {c : Config} {a : Nat} {cs : List ByteCell} (h : fourCellsAt c a = some cs) :
    ∃ x0 x1 x2 x3, cs = [x0, x1, x2, x3] ∧ elementAt c a = some (.byte x0) ∧ elementAt c (a + 1) = some (.byte x1) ∧
      elementAt c (a + 2) = some (.byte x2) ∧ elementAt c (a + 3) = some (.byte x3) := by
  unfold fourCellsAt at h
  split at h
  case h_1 x0 x1 x2 x3 h0 h1 h2 h3 =>
    simp only [byteCellAt_eq_some_iff] at h0 h1 h2 h3
    exact ⟨x0, x1, x2, x3, (Option.some.inj h).symm, h0, h1, h2, h3⟩
  case h_2 => cases h

/-- An access that touches byte cells touches the one at its address, or four from an aligned address on. -/
theorem targetAt_cells {c : Config} {a : Nat} {z : Size} {cs : List ByteCell} (h : targetAt c a z = some (.cells cs)) :
    (z = .one ∧ ∃ x, cs = [x] ∧ elementAt c a = some (.byte x)) ∨
    (z = .four ∧ a % 4 = 0 ∧ ∃ x0 x1 x2 x3, cs = [x0, x1, x2, x3] ∧ elementAt c a = some (.byte x0) ∧
      elementAt c (a + 1) = some (.byte x1) ∧ elementAt c (a + 2) = some (.byte x2) ∧
      elementAt c (a + 3) = some (.byte x3)) := by
  cases z with
  | one =>
    obtain ⟨x, hx, e⟩ := Option.map_eq_some_iff.1 h
    cases e
    exact .inl ⟨rfl, x, rfl, byteCellAt_eq_some_iff.1 hx⟩
  | four =>
    simp only [targetAt] at h
    split at h
    case isTrue ha =>
      split at h
      · cases h
      · obtain ⟨cs', hcs, e⟩ := Option.map_eq_some_iff.1 h
        cases e
        exact .inr ⟨rfl, ha, fourCellsAt_eq_some hcs⟩
      · cases h
    case isFalse => cases h

/-- Each byte cell an access touches is at its address, or at one of the four from an aligned address on. -/
theorem elementAt_of_mem_targetAt {c : Config} {a : Nat} {z : Size} {cs : List ByteCell}
    (h : targetAt c a z = some (.cells cs)) {x : ByteCell} (hx : x ∈ cs) :
    ∃ j < 4, (j = 0 ∨ a % 4 = 0) ∧ elementAt c (a + j) = some (.byte x) := by
  rcases targetAt_cells h with ⟨-, x0, rfl, h0⟩ | ⟨-, ha, x0, x1, x2, x3, rfl, h0, h1, h2, h3⟩
  · rw [List.mem_singleton] at hx
    exact ⟨0, by decide, .inl rfl, hx ▸ h0⟩
  · simp only [List.mem_cons, List.not_mem_nil, or_false] at hx
    rcases hx with rfl | rfl | rfl | rfl
    · exact ⟨0, by decide, .inr ha, h0⟩
    · exact ⟨1, by decide, .inr ha, h1⟩
    · exact ⟨2, by decide, .inr ha, h2⟩
    · exact ⟨3, by decide, .inr ha, h3⟩

/-- A legal access to an address of a word register touches that register. -/
theorem eq_word_of_targetAt {c : Config} {a : Nat} {z : Size} {r : WordReg} {g : Target}
    (he : elementAt c a = some (.word r)) (h : targetAt c a z = some g) : g = .word r := by
  cases g with
  | word r' =>
    obtain ⟨he', -, -⟩ := targetAt_word h
    rw [he] at he'
    cases he'
    rfl
  | cells cs =>
    rcases targetAt_cells h with ⟨-, x, -, hx⟩ | ⟨-, -, x, _, _, _, -, hx, -⟩ <;>
    · rw [he] at hx
      cases hx

/-- The port has no target for an access exactly when R64 or R65 calls it an error. -/
theorem targetAt_eq_none_iff {c : Config} {a : Nat} {z : Size} : targetAt c a z = none ↔ badAccess c a z := by
  cases z with
  | one => simp [targetAt, badAccess, byteCellAt_eq_none_iff, or_comm]
  | four =>
    by_cases ha : a % 4 = 0
    case neg => simp [targetAt, badAccess, ha]
    match he : elementAt c a with
    | none => simp [targetAt, badAccess, ha, he]
    | some (.word r) =>
      have mapped (k : Nat) (hk : k < 4) : elementAt c (a + k) ≠ none := by
        have hlt : a < 0x18 := elementAt_word_iff.1 ⟨r, he⟩
        obtain ⟨r', hr'⟩ := elementAt_word_iff (c := c).2 (show a + k < 0x18 by omega)
        simp [hr']
      simpa [targetAt, badAccess, ha, he] using mapped
    | some (.byte x) =>
      have word_free (k : Nat) : ¬ ∃ r, elementAt c (a + k) = some (.word r) := by
        have hge : ¬ a < 0x18 := fun hlt => by
          obtain ⟨r, hr⟩ := elementAt_word_iff (c := c).2 hlt
          simp [he] at hr
        rw [elementAt_word_iff]
        omega
      simp [targetAt, badAccess, ha, he, fourCellsAt_eq_none_iff, byteCellAt_eq_none_iff, word_free]

/-! ### Errors and answers -/

theorem withKey_answer {rule : State → State} (h : ∀ s, (rule s).answer = s.answer) (s : State) :
    (withKey rule s).answer = s.answer := by
  unfold withKey
  split
  · exact h s
  · rfl

theorem kloadRule_answer (s : State) : (kloadRule s).answer = s.answer := by
  unfold kloadRule
  split <;> rfl

theorem aeencRule_answer (s : State) : (aeencRule s).answer = s.answer := by
  unfold aeencRule
  split_ifs <;> simp [aeencWork]

theorem aedecRule_answer (s : State) : (aedecRule s).answer = s.answer := by
  fun_cases aedecRule s
  case case4 =>
    unfold aedecWork
    dsimp only
    split <;> simp
  all_goals simp

/-- No command changes the port's last answer (log 9). -/
theorem ruleOf_answer (i : Instr) (s : State) : (ruleOf i s).answer = s.answer := by
  cases i with
  | gfinit => simp [ruleOf, gfinitRule]
  | gfmul a b => simp [ruleOf, gfmulRule]
  | gfmulf a b => simp [ruleOf, gfmulfRule]
  | kload => exact kloadRule_answer s
  | kexp => exact withKey_answer (fun s => by simp [kexpRule]) s
  | encblk => exact withKey_answer (fun s => by simp [encblkRule]) s
  | hderive => exact withKey_answer (fun s => by simp [hderiveRule]) s
  | ctrinc => rfl
  | ghmul => rfl
  | aeenc => exact withKey_answer aeencRule_answer s
  | aedec => exact withKey_answer aedecRule_answer s
  | clr => rfl

/-- Issuing a command word, legal or not, leaves the answer recorded before it. -/
theorem issue_answer (w : Word) (s : State) : ∃ t, issue w s = .next t ∧ t.answer = s.answer := by
  unfold issue
  split
  case h_1 i _ =>
    refine ⟨_, exec_next i s, ?_⟩
    split
    · rfl
    · exact ruleOf_answer i s
  case h_2 =>
    refine ⟨_, rfl, ?_⟩
    split <;> rfl

/-- A legal write answers `ok`, whatever it does. -/
theorem step_write_answer {s : State} {rest : List Input} {a : Addr} {z : Size} {d : Word} {g : Target}
    (h : s.inputs = .bus (.write a z d) :: rest) (hg : targetAt s.cfg a.toNat z = some g) :
    ∃ t, step s = .next t ∧ t.answer = some .writeOk := by
  by_cases hc : g = .word .cmd
  · subst hc
    rw [step_write_cmd h hg]
    exact issue_answer d _
  · exact ⟨_, step_write_data h hg hc, writeTarget_answer _ _ _⟩

theorem busRead_of_none {s : State} {a : Addr} {z : Size} (h : targetAt s.cfg a.toNat z = none) :
    busRead s a z = .error := by
  rw [busRead, h]

theorem busRead_of_some {s : State} {a : Addr} {z : Size} {g : Target} (h : targetAt s.cfg a.toNat z = some g) :
    busRead s a z = .readOk (readTarget s g) := by
  rw [busRead, h]

/-- With BUF_MAX in its range a word of the address map is wholly mapped or wholly unmapped (R65). -/
theorem elementAt_add_none_iff {c : Config} (hc : c.wellFormed = true) {a k : Nat} (ha : a % 4 = 0) (hk : k < 4) :
    elementAt c (a + k) = none ↔ elementAt c a = none := by
  simp only [Config.wellFormed, Bool.and_eq_true, decide_eq_true_eq] at hc
  obtain ⟨-, hmod⟩ := hc
  simp only [elementAt_none_iff]
  omega

/-- Settles O9: the port has no target for an access exactly when the access is bad, and then it answers `error`. -/
theorem badAccessAnswersErrorAndChangesNothing : Obligations.BadAccessAnswersErrorAndChangesNothing := by
  intro s rest a z d
  refine ⟨fun hbad => ?_, fun hok => ?_, fun hc ha k hk => elementAt_add_none_iff hc ha hk⟩
  · have hn := targetAt_eq_none_iff.2 hbad
    refine ⟨fun h => ?_, fun h => step_write_none h hn⟩
    rw [step_read h, busRead_of_none hn]
    rfl
  · obtain ⟨g, hg⟩ := Option.ne_none_iff_exists'.1 (mt targetAt_eq_none_iff.1 hok)
    refine ⟨fun h => ⟨_, readTarget s g, step_read h, ?_⟩, fun h => step_write_answer h hg⟩
    rw [busRead_of_some hg]
    rfl

end Sys2Proof.Machine
end

section
/-! PROOFS. Writing the same bytes twice leaves what writing them once leaves (20_memory.md R67), said first of memory
and of the 16-byte registers, then of the cells of one access. -/

namespace Sys2Proof.Machine

/-! ### Two writes to memory, canonical or not -/

theorem memoryWrite_memoryWrite_same (m : Memory) (a : Nat) (b b' : Byte) :
    memoryWrite (memoryWrite m a b) a b' = memoryWrite m a b' := by
  induction m with
  | nil => simp [memoryWrite]
  | cons c m ih =>
    obtain ⟨x, y⟩ := c
    simp only [memoryWrite]
    split_ifs <;> simp [memoryWrite, *]

theorem memoryWrite_comm_of_lt (m : Memory) {a a' : Nat} (b b' : Byte) (h : a < a') :
    memoryWrite (memoryWrite m a b) a' b' = memoryWrite (memoryWrite m a' b') a b := by
  have hle : ¬ a' < a := by omega
  have hne : a' ≠ a := by omega
  induction m with
  | nil => simp [memoryWrite, h, hle, hne]
  | cons c m ih =>
    obtain ⟨x, y⟩ := c
    rcases Nat.lt_trichotomy a x with hlt | rfl | hgt
    · simp only [memoryWrite, hlt, hle, hne, if_true, if_false]
      split_ifs <;> simp [memoryWrite, *]
    · simp [memoryWrite, hle, hne]
    · have hx : ¬ a < x := by omega
      have hxne : a ≠ x := by omega
      have h1 : ¬ a' < x := by omega
      have h2 : a' ≠ x := by omega
      simp [memoryWrite, hx, hxne, h1, h2, ih]

theorem memoryWrite_comm (m : Memory) {a a' : Nat} (b b' : Byte) (h : a ≠ a') :
    memoryWrite (memoryWrite m a b) a' b' = memoryWrite (memoryWrite m a' b') a b := by
  rcases Nat.lt_or_gt_of_ne h with hlt | hgt
  · exact memoryWrite_comm_of_lt m b b' hlt
  · exact (memoryWrite_comm_of_lt m b' b hgt).symm

/-! ### Two writes to a 16-byte register -/

theorem setBlockByte_setBlockByte_same (x : Block) (k : Nat) (b b' : Byte) :
    setBlockByte (setBlockByte x k b) k b' = setBlockByte x k b' :=
  blockOfFn_congr fun n hn => by
    rw [blockByte_setBlockByte x k b hn]
    split <;> rfl

theorem setBlockByte_comm (x : Block) {k k' : Nat} (b b' : Byte) (h : k ≠ k') :
    setBlockByte (setBlockByte x k b) k' b' = setBlockByte (setBlockByte x k' b') k b :=
  blockOfFn_congr fun n hn => by
    rw [blockByte_setBlockByte x k b hn, blockByte_setBlockByte x k' b' hn]
    grind

@[simp] theorem readBlockReg_writeBlockReg_same (s : State) (v : Block) (r : BlockReg) :
    readBlockReg (writeBlockReg s v r) r = v := by
  cases r <;> rfl

theorem readBlockReg_writeBlockReg_ne (s : State) (v : Block) {r r' : BlockReg} (h : r ≠ r') :
    readBlockReg (writeBlockReg s v r) r' = readBlockReg s r' := by
  cases r <;> cases r' <;> first | rfl | exact absurd rfl h

@[simp] theorem writeBlockReg_writeBlockReg_same (s : State) (v v' : Block) (r : BlockReg) :
    writeBlockReg (writeBlockReg s v r) v' r = writeBlockReg s v' r := by
  cases r <;> rfl

theorem writeBlockReg_comm (s : State) (v v' : Block) {r r' : BlockReg} (h : r ≠ r') :
    writeBlockReg (writeBlockReg s v r) v' r' = writeBlockReg (writeBlockReg s v' r') v r := by
  cases r <;> cases r' <;> first | rfl | exact absurd rfl h

/-! ### Two writes to a byte cell -/

/-- Where a 16-byte register begins on the bus (R61). -/
def regBase : BlockReg → Nat
  | .keyin => 0x20
  | .blkin => 0x30
  | .blkout => 0x40
  | .ghop => 0x50
  | .ctr => 0x60
  | .tagin => 0x70
  | .tagout => 0x80

/-- The bus address of a byte cell. -/
def cellAddr : ByteCell → Nat
  | .reg r k => regBase r + k
  | .buf b off => spaceBase b + off

theorem cellAddr_of_elementAt {c : Config} {a : Nat} {x : ByteCell} (h : elementAt c a = some (.byte x)) :
    cellAddr x = a := by
  revert h
  fun_cases elementAt c a <;> rintro ⟨⟩ <;> simp only [cellAddr, regBase, spaceBase] <;> omega

/-- The cells of one access are at different addresses. -/
theorem nodup_cellAddr_of_targetAt {c : Config} {a : Nat} {z : Size} {cs : List ByteCell}
    (h : targetAt c a z = some (.cells cs)) : (cs.map cellAddr).Nodup := by
  rcases targetAt_cells h with ⟨-, x, rfl, -⟩ | ⟨-, -, x0, x1, x2, x3, rfl, h0, h1, h2, h3⟩
  · simp
  · simp [cellAddr_of_elementAt h0, cellAddr_of_elementAt h1, cellAddr_of_elementAt h2, cellAddr_of_elementAt h3]

theorem storeByteCell_same (s : State) (b b' : Byte) (x : ByteCell) :
    storeByteCell (storeByteCell s b x) b' x = storeByteCell s b' x := by
  cases x with
  | reg r k =>
    cases h : hostWritable r <;> simp [storeByteCell, h, setBlockByte_setBlockByte_same]
  | buf sp off =>
    cases sp <;> simp [storeByteCell, memWrite, memoryWriteBytes, memoryWrite_memoryWrite_same]

theorem storeByteCell_reg_comm_buf (s : State) (b b' : Byte) (r : BlockReg) (k : Nat) (sp : Space) (off : Nat) :
    storeByteCell (storeByteCell s b (.reg r k)) b' (.buf sp off) =
      storeByteCell (storeByteCell s b' (.buf sp off)) b (.reg r k) := by
  cases sp <;> cases r <;> rfl

theorem storeByteCell_reg_comm (s : State) (b b' : Byte) {r r' : BlockReg} {k k' : Nat} (h : r = r' → k ≠ k') :
    storeByteCell (storeByteCell s b (.reg r k)) b' (.reg r' k') =
      storeByteCell (storeByteCell s b' (.reg r' k')) b (.reg r k) := by
  by_cases hr : r = r'
  · subst hr
    cases hw : hostWritable r <;> simp [storeByteCell, hw, setBlockByte_comm _ b b' (h rfl)]
  · cases hw : hostWritable r <;> cases hw' : hostWritable r' <;>
      simp [storeByteCell, hw, hw', readBlockReg_writeBlockReg_ne _ _ hr, readBlockReg_writeBlockReg_ne _ _ (Ne.symm hr),
        writeBlockReg_comm _ _ _ hr]

theorem storeByteCell_buf_comm (s : State) (b b' : Byte) {sp sp' : Space} {off off' : Nat}
    (h : spaceBase sp + off ≠ spaceBase sp' + off') :
    storeByteCell (storeByteCell s b (.buf sp off)) b' (.buf sp' off') =
      storeByteCell (storeByteCell s b' (.buf sp' off')) b (.buf sp off) := by
  cases sp <;> cases sp' <;> simp [storeByteCell, memWrite, memoryWriteBytes, memoryWrite_comm _ b b' h]

/-- Writes to cells at different addresses can change places. -/
theorem storeByteCell_comm (s : State) (b b' : Byte) {x x' : ByteCell} (h : cellAddr x ≠ cellAddr x') :
    storeByteCell (storeByteCell s b x) b' x' = storeByteCell (storeByteCell s b' x') b x := by
  match x, x' with
  | .reg r k, .reg r' k' => exact storeByteCell_reg_comm s b b' fun hr hk => h (by rw [hr, hk])
  | .reg r k, .buf sp off => exact storeByteCell_reg_comm_buf s b b' r k sp off
  | .buf sp off, .reg r k => exact (storeByteCell_reg_comm_buf s b' b r k sp off).symm
  | .buf sp off, .buf sp' off' => exact storeByteCell_buf_comm s b b' h

/-! ### Two writes by the same access -/

theorem storeCells_storeByteCell_comm (s : State) (d : Word) (b : Byte) (k : Nat) {x : ByteCell} {cs : List ByteCell}
    (h : cellAddr x ∉ cs.map cellAddr) :
    storeCells (storeByteCell s b x) d k cs = storeByteCell (storeCells s d k cs) b x := by
  induction cs generalizing s k with
  | nil => rfl
  | cons y cs ih =>
    simp only [List.map_cons, List.mem_cons, not_or] at h
    obtain ⟨hy, hcs⟩ := h
    simp only [storeCells]
    rw [storeByteCell_comm s _ _ hy, ih _ _ hcs]

theorem storeCells_storeCells_same (s : State) (d : Word) (k : Nat) {cs : List ByteCell} (h : (cs.map cellAddr).Nodup) :
    storeCells (storeCells s d k cs) d k cs = storeCells s d k cs := by
  induction cs generalizing s k with
  | nil => rfl
  | cons x cs ih =>
    rw [List.map_cons, List.nodup_cons] at h
    obtain ⟨hx, hcs⟩ := h
    simp only [storeCells]
    rw [← storeCells_storeByteCell_comm _ _ _ _ hx, storeByteCell_same, ih _ _ hcs]

theorem writeTarget_of_safe {s : State} (h : s.safe) (d : Word) (g : Target) : writeTarget s d g = storeTarget s d g := by
  simp [writeTarget, h]

theorem storeTarget_storeTarget_same (s : State) (d : Word) {c : Config} {a : Nat} {z : Size} {g : Target}
    (hg : targetAt c a z = some g) : storeTarget (storeTarget s d g) d g = storeTarget s d g := by
  cases g with
  | word r => cases r <;> rfl
  | cells cs => exact storeCells_storeCells_same s d 0 (nodup_cellAddr_of_targetAt hg)

/-- A host write made twice leaves what it leaves made once. -/
theorem writeTarget_writeTarget_same (s : State) (d : Word) {c : Config} {a : Nat} {z : Size} {g : Target}
    (hg : targetAt c a z = some g) : writeTarget (writeTarget s d g) d g = writeTarget s d g := by
  by_cases hf : s.safe
  · rw [writeTarget_of_safe ((writeTarget_fatal s d g).trans hf), writeTarget_of_safe hf,
      storeTarget_storeTarget_same s d hg]
  · have hf : s.fatal = true := by simpa using hf
    rw [writeTarget_of_fatal hf, writeTarget_of_fatal hf]

/-! ### The model's own fields -/

theorem storeByteCell_answered (s : State) (rest : List Input) (r : Option Response) (b : Byte) (x : ByteCell) :
    storeByteCell (answered s rest r) b x = answered (storeByteCell s b x) rest r := by
  cases x with
  | reg q k => cases q <;> rfl
  | buf sp off => cases sp <;> rfl

theorem storeCells_answered (s : State) (rest : List Input) (r : Option Response) (d : Word) (k : Nat)
    (cs : List ByteCell) : storeCells (answered s rest r) d k cs = answered (storeCells s d k cs) rest r := by
  induction cs generalizing s k with
  | nil => rfl
  | cons x cs ih => rw [storeCells, storeByteCell_answered, ih, storeCells]

/-- What a host write stores does not depend on the inputs after it or on the answer recorded. -/
theorem writeTarget_answered (s : State) (rest : List Input) (r : Option Response) (d : Word) (g : Target) :
    writeTarget (answered s rest r) d g = answered (writeTarget s d g) rest r := by
  by_cases hf : s.safe
  · rw [writeTarget_of_safe hf, writeTarget_of_safe (by exact hf)]
    cases g with
    | word q => cases q <;> rfl
    | cells cs => exact storeCells_answered s rest r d 0 cs
  · have hf : s.fatal = true := by simpa using hf
    rw [writeTarget_of_fatal hf, writeTarget_of_fatal (by exact hf)]

theorem byteCellValue_answered (s : State) (rest : List Input) (r : Option Response) :
    byteCellValue (answered s rest r) = byteCellValue s := by
  funext x
  cases x with
  | reg q k => cases q <;> rfl
  | buf sp off => cases sp <;> rfl

theorem busRead_answered (s : State) (rest : List Input) (r : Option Response) (a : Addr) (z : Size) :
    busRead (answered s rest r) a z = busRead s a z := by
  unfold busRead readTarget targetValue
  rw [byteCellValue_answered]
  rfl

end Sys2Proof.Machine
end

section
/-! PROOFS. Side effects of bus accesses (20_memory.md R67). -/

namespace Sys2Proof.Machine

/-- While FATAL is clear a write of 0x21 to CMD increments CTR (42_ctr_ghash.md R162). -/
theorem step_ctrinc {s : State} {rest : List Input} (hs : s.safe)
    (h : s.inputs = .bus (.write 0x00000#18 .four 0x21#32) :: rest) :
    step s = .next (ctrincRule (answered s rest (some .writeOk))) := by
  rw [step_command h, issue_of_decode (i := .ctrinc) (by decide)]
  exact command_of_safe (s := answered s rest (some .writeOk)) hs ctrincRule

theorem step_read_repeated {s : State} {rest : List Input} {a : Addr} {z : Size}
    (h : s.inputs = .bus (.read a z) :: rest) (rest' : List Input) :
    ∃ r, step s = .next (answered s rest (some r)) ∧
      step (answered s (.bus (.read a z) :: rest') (some r)) = .next (answered s rest' (some r)) := by
  refine ⟨_, step_read h, ?_⟩
  rw [step_read (answered_inputs _ _ _), busRead_answered]
  rfl

theorem step_write_repeated {s t : State} {rest : List Input} {a : Addr} {z : Size} {d : Word}
    (hc : targetAt s.cfg a.toNat z ≠ some (.word .cmd))
    (h : s.inputs = .bus (.write a z d) :: .bus (.write a z d) :: rest) (ht : step s = .next t) :
    step t = .next { t with inputs := rest } := by
  cases hg : targetAt s.cfg a.toNat z with
  | none =>
    rw [step_write_none h hg] at ht
    cases ht
    exact step_write_none rfl hg
  | some g =>
    have hne : g ≠ .word .cmd := fun e => hc (e ▸ hg)
    rw [step_write_data h hg hne, writeTarget_answered] at ht
    cases ht
    rw [step_write_data (answered_inputs _ _ _) (by simpa using hg) hne, writeTarget_answered, writeTarget_answered,
      writeTarget_writeTarget_same _ _ hg]
    rfl

/-- Two increments of CTR: the second goes on from the first. -/
theorem ctrinc_repeated_differs :
    ∃ (s t : State) (rest : List Input) (d : Word),
      s.inputs = .bus (.write 0x00000#18 .four d) :: .bus (.write 0x00000#18 .four d) :: rest ∧ step s = .next t ∧
      step t ≠ .next { t with inputs := rest } := by
  refine ⟨{ State.reset with inputs := [commandWrite 0x21#32, commandWrite 0x21#32] }, _, [], 0x21#32, rfl,
    step_ctrinc rfl rfl, ?_⟩
  rw [step_ctrinc rfl rfl]
  intro h
  have hctr := congrArg State.ctr (Host.Outcome.next.inj h)
  exact absurd hctr (by decide)

/-- Settles O10: a read stores only its answer, a write to a cell overwrites what the same write left there, and CTRINC
twice is two increments. -/
theorem onlyCommandWritesHaveSideEffects : Obligations.OnlyCommandWritesHaveSideEffects :=
  ⟨fun _ _ rest' _ _ h => step_read_repeated h rest', fun _ _ _ _ _ _ hc h ht => step_write_repeated hc h ht,
    ctrinc_repeated_differs⟩

end Sys2Proof.Machine
end

section
/-! PROOFS. Access rights of the port (20_memory.md R66) and its gate (60_exceptions.md R214). -/

namespace Sys2Proof.Machine

/-! ### Read-only elements -/

/-- The addresses of STATUS, DSTLEN, GFP, BLKOUT, TAGOUT and DSTBUF, which ignore host writes (R66). -/
def readOnlyAddr (a : Nat) : Prop :=
  (0x04 ≤ a ∧ a < 0x08) ∨ (0x10 ≤ a ∧ a < 0x18) ∨ (0x40 ≤ a ∧ a < 0x50) ∨ (0x80 ≤ a ∧ a < 0x90) ∨ 0x30000 ≤ a

theorem readOnlyAddr_add {a j : Nat} (h : readOnlyAddr a) (hj : j < 4) (ha : j = 0 ∨ a % 4 = 0) :
    readOnlyAddr (a + j) := by
  unfold readOnlyAddr at *
  omega

theorem storeWordReg_readOnly {c : Config} {a : Nat} {r : WordReg} (ha : readOnlyAddr a)
    (h : elementAt c a = some (.word r)) (s : State) (d : Word) : storeWordReg s d r = s := by
  unfold readOnlyAddr at ha
  revert h
  fun_cases elementAt c a <;> rintro ⟨⟩ <;> first | rfl | omega

theorem storeByteCell_readOnly {c : Config} {a : Nat} {x : ByteCell} (ha : readOnlyAddr a)
    (h : elementAt c a = some (.byte x)) (s : State) (b : Byte) : storeByteCell s b x = s := by
  unfold readOnlyAddr at ha
  revert h
  fun_cases elementAt c a <;> rintro ⟨⟩ <;> first | rfl | omega

theorem storeCells_of_ignored {s : State} {cs : List ByteCell} (h : ∀ x ∈ cs, ∀ b, storeByteCell s b x = s) (d : Word)
    (k : Nat) : storeCells s d k cs = s := by
  induction cs generalizing k with
  | nil => rfl
  | cons x cs ih =>
    rw [storeCells, h x List.mem_cons_self]
    exact ih (fun y hy => h y (List.mem_cons_of_mem x hy)) (k + 1)

theorem storeTarget_readOnly {c : Config} {a : Nat} {z : Size} {g : Target} (ha : readOnlyAddr a)
    (hg : targetAt c a z = some g) (s : State) (d : Word) : storeTarget s d g = s := by
  cases g with
  | word r =>
    obtain ⟨he, -, -⟩ := targetAt_word hg
    exact storeWordReg_readOnly ha he s d
  | cells cs =>
    refine storeCells_of_ignored (fun x hx b => ?_) d 0
    obtain ⟨j, hj, hja, he⟩ := elementAt_of_mem_targetAt hg hx
    exact storeByteCell_readOnly (readOnlyAddr_add ha hj hja) he s b

/-- A legal write to a read-only element answers `ok` and changes nothing. -/
theorem step_write_readOnly {s : State} {rest : List Input} {a : Addr} {z : Size} {d : Word} {g : Target}
    (hs : s.safe) (ha : readOnlyAddr a.toNat) (h : s.inputs = .bus (.write a z d) :: rest)
    (hg : targetAt s.cfg a.toNat z = some g) : step s = .next (answered s rest (some .writeOk)) := by
  have hne : g ≠ .word .cmd := by
    rintro rfl
    obtain ⟨he, -, -⟩ := targetAt_word hg
    have hlt := elementAt_cmd_iff.1 he
    unfold readOnlyAddr at ha
    omega
  rw [step_write_data h hg hne, writeTarget_of_safe (by exact hs), storeTarget_readOnly ha hg]

/-! ### Reads -/

theorem packLanes_eq_zero {bs : List Byte} (h : ∀ b ∈ bs, b = 0#8) : packLanes bs = 0#32 := by
  induction bs with
  | nil => rfl
  | cons b bs ih =>
    rw [List.forall_mem_cons] at h
    obtain ⟨rfl, hbs⟩ := h
    rw [packLanes, ih hbs]
    rfl

theorem readTarget_of_safe {s : State} (hs : s.safe) (g : Target) : readTarget s g = targetValue s g := by
  simp [readTarget, hs]

theorem readTarget_of_fatal {s : State} (hs : s.fatal = true) {g : Target} (hg : g ≠ .word .status) :
    readTarget s g = 0#32 := by
  simp [readTarget, hs, hg]

/-- STATUS can be read in any state. -/
theorem readTarget_status (s : State) : readTarget s (.word .status) = statusWord s := by
  unfold readTarget
  split <;> rfl

/-- What reads as 0 while FATAL is clear reads as 0 in any state, unless it is STATUS. -/
theorem readTarget_eq_zero {s : State} {g : Target} (hg : g ≠ .word .status) (h : targetValue s g = 0#32) :
    readTarget s g = 0#32 := by
  by_cases hs : s.safe
  · rw [readTarget_of_safe hs, h]
  · exact readTarget_of_fatal (by simpa using hs) hg

theorem busRead_cmd {s : State} {a : Addr} {z : Size} {g : Target} (ha : a.toNat < 0x04)
    (hg : targetAt s.cfg a.toNat z = some g) : busRead s a z = .readOk 0#32 := by
  obtain rfl := eq_word_of_targetAt (elementAt_cmd_iff.2 ha) hg
  rw [busRead_of_some hg, readTarget_eq_zero (g := .word .cmd) (by decide) rfl]

theorem busRead_keyin {s : State} {a : Addr} {z : Size} {g : Target} (ha : 0x20 ≤ a.toNat ∧ a.toNat < 0x30)
    (hg : targetAt s.cfg a.toNat z = some g) : busRead s a z = .readOk 0#32 := by
  cases g with
  | word r =>
    obtain ⟨he, -, -⟩ := targetAt_word hg
    have hlt := elementAt_word_iff.1 ⟨r, he⟩
    omega
  | cells cs =>
    rw [busRead_of_some hg, readTarget_eq_zero (g := .cells cs) (by simp)]
    refine packLanes_eq_zero (List.forall_mem_map.2 fun x hx => ?_)
    obtain ⟨j, hj, hja, he⟩ := elementAt_of_mem_targetAt hg hx
    rw [elementAt_keyin (by omega) (by omega)] at he
    cases he
    rfl

theorem byteCellValue_dst (s : State) {a : Nat} (ha : 0x30000 ≤ a) :
    byteCellValue s (.buf .dst (a - 0x30000)) = if a - 0x30000 < s.dstlen.toNat then cellByte s a else 0#8 := by
  have hsum : spaceBase .dst + (a - 0x30000) = a := by
    simp only [spaceBase]
    omega
  simp only [byteCellValue, bufferByte, hsum]

/-- A cell at 0x30000 or above holds the byte of DSTBUF there, and reads as 0 at an offset ≥ DSTLEN. -/
theorem byteCellValue_of_elementAt_dst (s : State) {c : Config} {a : Nat} {x : ByteCell} (ha : 0x30000 ≤ a)
    (he : elementAt c a = some (.byte x)) :
    byteCellValue s x = if a - 0x30000 < s.dstlen.toNat then cellByte s a else 0#8 := by
  have hx := eq_dst_of_elementAt ha he
  cases hx
  exact byteCellValue_dst s ha

/-- What a legal access from 0x30000 on touches are byte cells. -/
theorem targetAt_dst {c : Config} {a : Nat} {z : Size} {g : Target} (ha : 0x30000 ≤ a) (hg : targetAt c a z = some g) :
    ∃ cs, g = .cells cs := by
  cases g with
  | word r =>
    obtain ⟨he, -, -⟩ := targetAt_word hg
    have hlt := elementAt_word_iff.1 ⟨r, he⟩
    omega
  | cells cs => exact ⟨cs, rfl⟩

theorem busRead_dst_one {s : State} {a : Addr} {g : Target} (hs : s.safe) (ha : 0x30000 ≤ a.toNat)
    (hg : targetAt s.cfg a.toNat .one = some g) :
    busRead s a .one =
      .readOk (if a.toNat - 0x30000 < s.dstlen.toNat then (cellByte s a.toNat).setWidth 32 else 0#32) := by
  obtain ⟨cs, rfl⟩ := targetAt_dst ha hg
  obtain ⟨-, x, -, he⟩ | ⟨h, -⟩ := targetAt_cells hg
  · rw [busRead_one hs, byteCellAt_eq_some_iff.2 he]
    dsimp only
    rw [byteCellValue_of_elementAt_dst s ha he]
    split <;> rfl
  · cases h

theorem busRead_dst_four {s : State} {a : Addr} {g : Target} (hs : s.safe) (ha : 0x30000 ≤ a.toNat)
    (hg : targetAt s.cfg a.toNat .four = some g) :
    ∃ v : Word, busRead s a .four = .readOk v ∧ ∀ k < 4, v.extractLsb' (8 * k) 8 =
      if a.toNat + k - 0x30000 < s.dstlen.toNat then cellByte s (a.toNat + k) else 0#8 := by
  obtain ⟨cs, rfl⟩ := targetAt_dst ha hg
  obtain ⟨h, -⟩ | ⟨-, -, x0, x1, x2, x3, rfl, h0, h1, h2, h3⟩ := targetAt_cells hg
  · cases h
  · refine ⟨_, by rw [busRead_of_some hg, readTarget_of_safe hs], fun k hk => ?_⟩
    simp only [targetValue, List.map_cons, List.map_nil, packLanes_lane _ _ _ _ hk]
    interval_cases k
    · exact byteCellValue_of_elementAt_dst s ha h0
    · exact byteCellValue_of_elementAt_dst s (by omega) h1
    · exact byteCellValue_of_elementAt_dst s (by omega) h2
    · exact byteCellValue_of_elementAt_dst s (by omega) h3

/-- Settles O14: each clause is the behaviour of the element that the address map has at the access's address. -/
theorem accessRightsOfThePort : Obligations.AccessRightsOfThePort := by
  intro s rest a z d g hg
  refine ⟨fun h hro => ?_, ?_, ?_, ?_, fun hf hst => ?_, fun hst => ?_⟩
  · by_cases hs : s.safe
    · exact step_write_readOnly hs (hro.resolve_left (by simp [hs])) h hg
    · exact step_write_of_fatal (by simpa using hs) h (by simp [hg])
  · rintro (ha | ha)
    · exact busRead_cmd ha hg
    · exact busRead_keyin ha hg
  · rintro hs ha rfl
    exact busRead_dst_one hs ha hg
  · rintro hs ha rfl
    exact busRead_dst_four hs ha hg
  · rw [busRead_of_some hg, readTarget_of_fatal hf]
    rintro rfl
    obtain ⟨he, -, -⟩ := targetAt_word hg
    exact hst (elementAt_status_iff.1 he)
  · obtain rfl := eq_word_of_targetAt (elementAt_status_iff.2 hst) hg
    rw [busRead_of_some hg, readTarget_status]

end Sys2Proof.Machine
end

section
/-! PROOFS. The decoder and the encoder are inverse to each other, and with that the match and mask of each command
(30_encoding.md R91, R94, R95). -/

namespace Sys2Proof

/-! ### A word is made of its fields -/

theorem zeroFieldZ_append_opField (w : Word) : zeroFieldZ w ++ opField w = w := by
  rw [zeroFieldZ, opField, BitVec.extractLsb'_append_extractLsb'_eq_extractLsb' (by rfl)]
  exact BitVec.extractLsb'_eq_self

theorem zeroFieldG_append_fields (w : Word) : zeroFieldG w ++ bField w ++ aField w ++ opField w = w := by
  rw [zeroFieldG, bField, aField, opField, BitVec.extractLsb'_append_extractLsb'_eq_extractLsb' (by rfl),
    BitVec.extractLsb'_append_extractLsb'_eq_extractLsb' (by rfl),
    BitVec.extractLsb'_append_extractLsb'_eq_extractLsb' (by rfl)]
  exact BitVec.extractLsb'_eq_self

theorem eq_wordZ_iff {op : Byte} {w : Word} : w = wordZ op ↔ opField w = op ∧ zeroFieldZ w = 0#24 := by
  constructor
  · rintro rfl
    exact wordZ_fields op
  · rintro ⟨rfl, hz⟩
    rw [wordZ, ← hz, zeroFieldZ_append_opField]

theorem eq_wordG_iff {op a b : Byte} {w : Word} :
    w = wordG op a b ↔ opField w = op ∧ aField w = a ∧ bField w = b ∧ zeroFieldG w = 0#8 := by
  constructor
  · rintro rfl
    exact wordG_fields op a b
  · rintro ⟨rfl, rfl, rfl, hz⟩
    rw [wordG, ← hz, zeroFieldG_append_fields]

/-! ### Decoding by format and by command -/

theorem formatZ_eq_ok_iff {w : Word} {i j : Instr} : formatZ w i = .ok j ↔ i = j ∧ zeroFieldZ w = 0#24 := by
  unfold formatZ
  split <;> simp [*]

theorem formatG_eq_ok_iff {w : Word} {i : Byte → Byte → Instr} {j : Instr} :
    formatG w i = .ok j ↔ i (aField w) (bField w) = j ∧ zeroFieldG w = 0#8 := by
  unfold formatG
  split <;> simp [*]

theorem eq_encode_of_formatZ {w : Word} {op : Byte} {i j : Instr} (hop : (opField w).toNat = op.toNat)
    (hi : encode i = wordZ op) (h : formatZ w i = .ok j) : w = encode j := by
  obtain ⟨rfl, hz⟩ := formatZ_eq_ok_iff.1 h
  exact hi ▸ eq_wordZ_iff.2 ⟨BitVec.eq_of_toNat_eq hop, hz⟩

theorem eq_encode_of_formatG {w : Word} {op : Byte} {i : Byte → Byte → Instr} {j : Instr}
    (hop : (opField w).toNat = op.toNat) (hi : ∀ a b, encode (i a b) = wordG op a b) (h : formatG w i = .ok j) :
    w = encode j := by
  obtain ⟨rfl, hz⟩ := formatG_eq_ok_iff.1 h
  exact hi _ _ ▸ eq_wordG_iff.2 ⟨BitVec.eq_of_toNat_eq hop, rfl, rfl, hz⟩

theorem eq_encode_of_decode {w : Word} {i : Instr} (h : decode w = .ok i) : w = encode i := by
  unfold decode at h
  split at h
  case h_2 hop => exact eq_encode_of_formatG (op := 0x02#8) hop (fun _ _ => rfl) h
  case h_3 hop => exact eq_encode_of_formatG (op := 0x03#8) hop (fun _ _ => rfl) h
  case h_13 => cases h
  all_goals exact eq_encode_of_formatZ ‹_› rfl h

theorem decode_encode (i : Instr) : decode (encode i) = .ok i := by
  cases i
  case gfmul a b => simp [decode, encode, formatG]
  case gfmulf a b => simp [decode, encode, formatG]
  all_goals rfl

theorem decode_eq_ok_iff {w : Word} {i : Instr} : decode w = .ok i ↔ w = encode i :=
  ⟨eq_encode_of_decode, fun h => h ▸ decode_encode i⟩

theorem decode_eq_error_iff {w : Word} : (∃ e, decode w = .error e) ↔ ∀ i, w ≠ encode i := by
  simp only [ne_eq, ← decode_eq_ok_iff]
  cases decode w <;> simp

/-! ### Match and mask (R94) -/

/-- The mask of format G keeps the opcode and the `zero` field, and clears both operands. -/
theorem and_maskG_fields (w : Word) :
    opField (w &&& 0xFF0000FF#32) = opField w ∧ aField (w &&& 0xFF0000FF#32) = 0#8 ∧
      bField (w &&& 0xFF0000FF#32) = 0#8 ∧ zeroFieldG (w &&& 0xFF0000FF#32) = zeroFieldG w := by
  simp only [opField, aField, bField, zeroFieldG, BitVec.extractLsb'_and]
  exact ⟨BitVec.and_allOnes, BitVec.and_zero, BitVec.and_zero, BitVec.and_allOnes⟩

theorem and_maskG_eq_wordG_iff {w : Word} {op : Byte} :
    w &&& 0xFF0000FF#32 = wordG op 0#8 0#8 ↔ opField w = op ∧ zeroFieldG w = 0#8 := by
  obtain ⟨hop, ha, hb, hz⟩ := and_maskG_fields w
  simp [eq_wordG_iff, hop, ha, hb, hz]

/-- The word of a format G command by match and mask: the match is the word with both operands zero. -/
theorem eq_wordG_iff_mask {op a b : Byte} {w : Word} :
    w = wordG op a b ↔ w &&& 0xFF0000FF#32 = wordG op 0#8 0#8 ∧ a = aField w ∧ b = bField w := by
  rw [and_maskG_eq_wordG_iff, eq_wordG_iff]
  constructor
  · rintro ⟨hop, ha, hb, hz⟩
    exact ⟨⟨hop, hz⟩, ha.symm, hb.symm⟩
  · rintro ⟨⟨hop, hz⟩, ha, hb⟩
    exact ⟨hop, ha.symm, hb.symm, hz⟩

/-- A format G command decodes by its match under the mask. -/
theorem decode_eq_ok_iff_mask {w : Word} {i : Instr} {op a b : Byte} (hi : encode i = wordG op a b) :
    decode w = .ok i ↔ w &&& 0xFF0000FF#32 = wordG op 0#8 0#8 ∧ a = aField w ∧ b = bField w :=
  decode_eq_ok_iff.trans (hi ▸ eq_wordG_iff_mask)

/-- The commands of format Z, in the order of R94. -/
def formatZCommands : List Instr := [.gfinit, .kload, .kexp, .encblk, .hderive, .ctrinc, .ghmul, .aeenc, .aedec, .clr]

/-- The matches of format Z in R94 are the words of its commands. -/
theorem map_encode_formatZCommands : formatZCommands.map encode =
    [0x01#32, 0x10#32, 0x11#32, 0x12#32, 0x20#32, 0x21#32, 0x22#32, 0x30#32, 0x31#32, 0x3F#32] := rfl

/-- A word is no command's exactly when it has no match of format G under the mask and no match of format Z. -/
theorem forall_ne_encode_iff {w : Word} :
    (∀ i, w ≠ encode i) ↔ w &&& 0xFF0000FF#32 ≠ 0x02#32 ∧ w &&& 0xFF0000FF#32 ≠ 0x03#32 ∧
      w ∉ formatZCommands.map encode := by
  constructor
  · intro h
    refine ⟨fun hm => h (.gfmul _ _) (eq_wordG_iff_mask.2 ⟨hm, rfl, rfl⟩),
      fun hm => h (.gfmulf _ _) (eq_wordG_iff_mask.2 ⟨hm, rfl, rfl⟩), fun hw => ?_⟩
    obtain ⟨i, -, hi⟩ := List.mem_map.1 hw
    exact h i hi.symm
  · rintro ⟨hmul, hmulf, hz⟩ i h
    cases i
    case gfmul a b => exact hmul (eq_wordG_iff_mask.1 h).1
    case gfmulf a b => exact hmulf (eq_wordG_iff_mask.1 h).1
    all_goals exact hz (List.mem_map.2 ⟨_, by decide, h.symm⟩)

/-- Settles O4: a word decodes to `i` exactly when it is `encode i`, and match and mask tell that word. -/
theorem decodeByMatchAndMask : Obligations.DecodeByMatchAndMask := by
  intro w
  have hIllegal := decode_eq_error_iff.trans (forall_ne_encode_iff (w := w))
  rw [map_encode_formatZCommands] at hIllegal
  exact ⟨decode_eq_ok_iff, fun a b => decode_eq_ok_iff_mask (op := 0x02#8) (a := a) (b := b) rfl,
    fun a b => decode_eq_ok_iff_mask (op := 0x03#8) (a := a) (b := b) rfl, decode_eq_ok_iff, decode_eq_ok_iff,
    decode_eq_ok_iff, decode_eq_ok_iff, decode_eq_ok_iff, decode_eq_ok_iff, decode_eq_ok_iff, decode_eq_ok_iff,
    decode_eq_ok_iff, hIllegal⟩

end Sys2Proof
end

section
/-! PROOFS. Words as polynomials over GF(2): the polynomial of `n` bits and of a bit vector, and what the operations on
bit vectors do to it (40_gf256.md R110). -/

namespace Sys2Proof.Machine
open Polynomial

/-- The polynomial over GF(2) of the bits `f 0` to `f (n - 1)`, bit i the coefficient of x^i. -/
noncomputable def bitPoly (n : ℕ) (f : ℕ → Bool) : (ZMod 2)[X] := ∑ i ∈ Finset.range n, if f i then X ^ i else 0

theorem bitPoly_coeff (n : ℕ) (f : ℕ → Bool) (i : ℕ) : (bitPoly n f).coeff i = if i < n ∧ f i then 1 else 0 := by
  have term (j : ℕ) : (if f j then X ^ j else 0 : (ZMod 2)[X]).coeff i = if i = j then if f j then 1 else 0 else 0 := by
    by_cases hj : f j <;> simp [hj, coeff_X_pow]
  simp only [bitPoly, finsetSum_coeff, term, Finset.sum_ite_eq, Finset.mem_range, ite_and]

theorem bitPoly_degree_lt (n : ℕ) (f : ℕ → Bool) : (bitPoly n f).degree < n :=
  (degree_lt_iff_coeff_zero _ n).2 fun i hi => by simp [bitPoly_coeff, Nat.not_lt.2 hi]

/-- Exclusive or of bits is the sum of polynomials. -/
theorem bitPoly_xor (n : ℕ) (f g : ℕ → Bool) : bitPoly n (fun i => f i ^^ g i) = bitPoly n f + bitPoly n g := by
  ext i
  rw [coeff_add, bitPoly_coeff, bitPoly_coeff, bitPoly_coeff]
  by_cases hi : i < n
  · cases f i <;> cases g i <;> simp [hi, CharTwo.add_self_eq_zero]
  · simp [hi]

/-- The polynomial of a bit vector, bit 0 the constant term. -/
noncomputable def polyOf {w : ℕ} (v : BitVec w) : (ZMod 2)[X] := bitPoly w fun i => v.getLsbD i

theorem polyOf_coeff {w : ℕ} (v : BitVec w) (i : ℕ) : (polyOf v).coeff i = if v.getLsbD i then 1 else 0 := by
  have hlt : v.getLsbD i = true → i < w := BitVec.lt_of_getLsbD
  by_cases hv : v.getLsbD i <;> simp [polyOf, bitPoly_coeff, hv, hlt]

theorem polyOf_degree_lt {w : ℕ} (v : BitVec w) : (polyOf v).degree < w := bitPoly_degree_lt _ _

theorem polyOf_injective {w : ℕ} {u v : BitVec w} (h : polyOf u = polyOf v) : u = v := by
  refine BitVec.eq_of_getLsbD_eq fun i _ => ?_
  have hi := congrArg (fun p => p.coeff i) h
  simp only [polyOf_coeff] at hi
  cases hu : u.getLsbD i <;> cases hv : v.getLsbD i <;> simp [hu, hv] at hi <;> rfl

/-- A number has no bit at or above the width it fits in. -/
theorem getLsbD_of_toNat_lt {w n i : ℕ} {v : BitVec w} (hv : v.toNat < 2 ^ n) (hi : n ≤ i) : v.getLsbD i = false :=
  Nat.testBit_lt_two_pow (hv.trans_le (Nat.pow_le_pow_right (by decide) hi))

theorem toNat_setWidth_lt {w n : ℕ} {v : BitVec w} (hv : v.toNat < 2 ^ n) (k : ℕ) : (v.setWidth k).toNat < 2 ^ n := by
  rw [BitVec.toNat_setWidth]
  exact (Nat.mod_le _ _).trans_lt hv

theorem polyOf_natDegree_le {w n : ℕ} {v : BitVec w} (hv : v.toNat < 2 ^ (n + 1)) : (polyOf v).natDegree ≤ n :=
  natDegree_le_iff_coeff_eq_zero.2 fun i hi => by simp [polyOf_coeff, getLsbD_of_toNat_lt hv hi]

theorem toNat_lt_of_polyOf_natDegree_le {w n : ℕ} {v : BitVec w} (h : (polyOf v).natDegree ≤ n) :
    v.toNat < 2 ^ (n + 1) := by
  refine Nat.lt_pow_two_of_testBit _ fun i hi => ?_
  have hc := natDegree_le_iff_coeff_eq_zero.1 h i hi
  rw [BitVec.testBit_toNat]
  simpa [polyOf_coeff] using hc

@[simp] theorem polyOf_zero {w : ℕ} : polyOf 0#w = 0 := by
  ext i
  simp [polyOf_coeff]

@[simp] theorem polyOf_xor {w : ℕ} (u v : BitVec w) : polyOf (u ^^^ v) = polyOf u + polyOf v := by
  simp only [polyOf, BitVec.getLsbD_xor, bitPoly_xor]

theorem polyOf_setWidth {w k : ℕ} {v : BitVec w} (hv : v.toNat < 2 ^ k) : polyOf (v.setWidth k) = polyOf v := by
  ext i
  by_cases hi : i < k
  · simp [polyOf_coeff, hi]
  · simp [polyOf_coeff, hi, getLsbD_of_toNat_lt hv (Nat.not_lt.1 hi)]

/-- A left shift that loses no bit multiplies by a power of x. -/
theorem polyOf_shiftLeft {w n k : ℕ} {v : BitVec w} (hv : v.toNat < 2 ^ n) (hk : n + k ≤ w) :
    polyOf (v <<< k) = X ^ k * polyOf v := by
  ext i
  rw [coeff_X_pow_mul', polyOf_coeff, polyOf_coeff, BitVec.getLsbD_shiftLeft]
  by_cases hi : i < w
  · by_cases hik : k ≤ i <;> simp [hi, hik]
  · simp [hi, getLsbD_of_toNat_lt hv (show n ≤ i - k by omega)]

/-- A bit vector is its low `k` bits and x^k times the rest. -/
theorem polyOf_eq_low_add_high {w : ℕ} (v : BitVec w) (k : ℕ) :
    polyOf v = bitPoly k (fun i => v.getLsbD i) + X ^ k * polyOf (v >>> k) := by
  ext i
  rw [coeff_add, coeff_X_pow_mul', polyOf_coeff, polyOf_coeff, bitPoly_coeff, BitVec.getLsbD_ushiftRight]
  by_cases hi : k ≤ i
  · simp [hi, Nat.not_lt.2 hi]
  · simp [hi, Nat.not_le.1 hi]

end Sys2Proof.Machine
end

section
/-! PROOFS. The field GF(2^8) behind the bytes: the class of a bit vector modulo the reduction polynomial, and the
multiply of R111 as the product of classes (40_gf256.md R110). -/

namespace Sys2Proof.Machine
open Polynomial

/-- The reduction polynomial x^8 + x^4 + x^3 + x + 1 (R110). -/
noncomputable def gfModulus : (ZMod 2)[X] := X ^ 8 + X ^ 4 + X ^ 3 + X + 1

theorem gfModulus_natDegree : gfModulus.natDegree = 8 := by
  unfold gfModulus
  compute_degree!

theorem gfModulus_monic : gfModulus.Monic := by
  unfold gfModulus
  monicity!

theorem gfModulus_degree : gfModulus.degree = 8 := by
  rw [degree_eq_natDegree gfModulus_monic.ne_zero, gfModulus_natDegree]
  rfl

theorem polyOf_0x11B : polyOf 0x11B#9 = gfModulus := by
  simp [polyOf, bitPoly, gfModulus, Finset.sum_range_succ]
  ring

theorem polyOf_byte_degree_lt (a : Byte) : (polyOf a).degree < gfModulus.degree := by
  rw [gfModulus_degree]
  exact polyOf_degree_lt a

/-- The class of a bit vector modulo the reduction polynomial. -/
noncomputable def gfClass {w : ℕ} (v : BitVec w) : AdjoinRoot gfModulus := AdjoinRoot.mk gfModulus (polyOf v)

/-- The class of x. -/
noncomputable abbrev gfX : AdjoinRoot gfModulus := AdjoinRoot.root gfModulus

@[simp] theorem gfClass_zero {w : ℕ} : gfClass 0#w = 0 := by simp [gfClass]

@[simp] theorem gfClass_xor {w : ℕ} (u v : BitVec w) : gfClass (u ^^^ v) = gfClass u + gfClass v := by simp [gfClass]

theorem gfClass_setWidth {w k : ℕ} {v : BitVec w} (hv : v.toNat < 2 ^ k) : gfClass (v.setWidth k) = gfClass v := by
  simp only [gfClass, polyOf_setWidth hv]

theorem gfClass_shiftLeft {w n k : ℕ} {v : BitVec w} (hv : v.toNat < 2 ^ n) (hk : n + k ≤ w) :
    gfClass (v <<< k) = gfX ^ k * gfClass v := by
  simp [gfClass, polyOf_shiftLeft hv hk]

theorem gfClass_eq_low_add_high {w : ℕ} (v : BitVec w) (k : ℕ) :
    gfClass v = AdjoinRoot.mk gfModulus (bitPoly k fun i => v.getLsbD i) + gfX ^ k * gfClass (v >>> k) := by
  simp [gfClass, polyOf_eq_low_add_high v k]

@[simp] theorem gfClass_one : gfClass (1#8 : Byte) = 1 := by
  simp [gfClass, polyOf, bitPoly]

@[simp] theorem gfClass_0x11B : gfClass 0x11B#9 = 0 := by simp [gfClass, polyOf_0x11B]

theorem gf_two_eq_zero : (2 : AdjoinRoot gfModulus) = 0 := by
  have htwo : (2 : (ZMod 2)[X]) = 0 := CharTwo.two_eq_zero
  rw [← map_ofNat (AdjoinRoot.mk gfModulus), htwo, map_zero]

/-- Different bytes are in different classes: their polynomials have degree below 8. -/
theorem gfClass_injective : Function.Injective (gfClass : Byte → AdjoinRoot gfModulus) := by
  intro a b h
  have hdvd : gfModulus ∣ polyOf a - polyOf b := AdjoinRoot.mk_eq_mk.1 h
  have hdeg : (polyOf a - polyOf b).degree < gfModulus.degree :=
    (degree_sub_le _ _).trans_lt (max_lt (polyOf_byte_degree_lt a) (polyOf_byte_degree_lt b))
  exact polyOf_injective (sub_eq_zero.1 (eq_zero_of_dvd_of_degree_lt hdvd hdeg))

/-! ### The reference multiply (R111) -/

/-- The multiple of the first factor in the next iteration of R111: the byte times x. -/
def gfTimesX (a : Byte) : Byte := if a.getLsbD 7 then (a <<< 1) ^^^ 0x1B#8 else a <<< 1

theorem gfMulLoop_succ (n : ℕ) (p a b : Byte) :
    gfMulLoop (n + 1) p a b = gfMulLoop n (if b.getLsbD 0 then p ^^^ a else p) (gfTimesX a) (b >>> 1) := rfl

/-- In 9 bits the byte shifted left is the byte times x, and the reduction polynomial if bit 7 was set. -/
theorem setWidth_shiftLeft_one (a : Byte) :
    a.setWidth 9 <<< 1 = (gfTimesX a).setWidth 9 ^^^ if a.getLsbD 7 then 0x11B#9 else 0#9 := by
  revert a
  decide

theorem gfClass_gfTimesX (a : Byte) : gfClass (gfTimesX a) = gfX * gfClass a := by
  have hwide (c : Byte) : gfClass (c.setWidth 9) = gfClass c := gfClass_setWidth (by omega)
  have hshift : gfClass (a.setWidth 9 <<< 1) = gfX * gfClass a := by
    rw [gfClass_shiftLeft (toNat_setWidth_lt a.isLt 9) (by decide), pow_one, hwide]
  rw [← hshift, setWidth_shiftLeft_one, gfClass_xor, hwide]
  split <;> simp

/-- The loop of R111 adds to `p` the product of `a` with what its iterations see of `b`. -/
theorem gfClass_gfMulLoop (n : ℕ) (p a b : Byte) (hb : b.toNat < 2 ^ n) :
    gfClass (gfMulLoop n p a b) = gfClass p + gfClass a * gfClass b := by
  induction n generalizing p a b with
  | zero =>
    obtain rfl : b = 0#8 := BitVec.eq_of_toNat_eq (by simpa using hb)
    simp [gfMulLoop]
  | succ n ih =>
    have hb' : (b >>> 1).toNat < 2 ^ n := by
      rw [BitVec.toNat_ushiftRight, Nat.shiftRight_eq_div_pow]
      omega
    have hbit : gfClass b = (if b.getLsbD 0 then 1 else 0) + gfX * gfClass (b >>> 1) := by
      rw [gfClass_eq_low_add_high b 1]
      split <;> simp_all [bitPoly]
    rw [gfMulLoop_succ, ih _ _ _ hb', gfClass_gfTimesX, hbit]
    split
    · rw [gfClass_xor]
      ring
    · ring

/-- The reference multiply is the product in the field. -/
@[simp] theorem gfClass_gfMulRef (a b : Byte) : gfClass (gfMulRef a b) = gfClass a * gfClass b := by
  simp [gfMulRef, gfClass_gfMulLoop 8 _ a b b.isLt]

theorem polyOf_gfMulRef (a b : Byte) : polyOf (gfMulRef a b) = (polyOf a * polyOf b) %ₘ gfModulus := by
  have hdvd : gfModulus ∣ polyOf a * polyOf b - polyOf (gfMulRef a b) :=
    AdjoinRoot.mk_eq_mk.1 ((map_mul _ _ _).trans (gfClass_gfMulRef a b).symm)
  rw [modByMonic_eq_of_dvd_sub gfModulus_monic hdvd,
    (modByMonic_eq_self_iff gfModulus_monic).2 (polyOf_byte_degree_lt _)]

/-- Settles O30: the loop of R111 multiplies classes modulo the reduction polynomial, and a byte is the only polynomial
of degree below 8 in its class. -/
theorem gfMulIsPolynomialProduct : Obligations.GfMulIsPolynomialProduct :=
  fun a b => ⟨polyOf_xor a b, polyOf_gfMulRef a b⟩

/-! ### Laws of the product -/

theorem gfMulRef_comm (a b : Byte) : gfMulRef a b = gfMulRef b a := gfClass_injective (by simp [mul_comm])

theorem gfMulRef_assoc (a b c : Byte) : gfMulRef (gfMulRef a b) c = gfMulRef a (gfMulRef b c) :=
  gfClass_injective (by simp [mul_assoc])

theorem gfMulRef_xor (a b c : Byte) : gfMulRef a (b ^^^ c) = gfMulRef a b ^^^ gfMulRef a c :=
  gfClass_injective (by simp [mul_add])

theorem xor_gfMulRef (a b c : Byte) : gfMulRef (a ^^^ b) c = gfMulRef a c ^^^ gfMulRef b c :=
  gfClass_injective (by simp [add_mul])

@[simp] theorem gfMulRef_zero (a : Byte) : gfMulRef a 0#8 = 0#8 := gfClass_injective (by simp)

@[simp] theorem zero_gfMulRef (a : Byte) : gfMulRef 0#8 a = 0#8 := gfClass_injective (by simp)

@[simp] theorem gfMulRef_one (a : Byte) : gfMulRef a 1#8 = a := gfClass_injective (by simp)

@[simp] theorem one_gfMulRef (a : Byte) : gfMulRef 1#8 a = a := gfClass_injective (by simp)

theorem two_gfMulRef (a : Byte) : gfMulRef 2#8 a = gfTimesX a := by
  have htwo : gfClass (2#8 : Byte) = gfX := by
    rw [show (2#8 : Byte) = gfTimesX 1#8 from rfl, gfClass_gfTimesX, gfClass_one, mul_one]
  exact gfClass_injective (by rw [gfClass_gfMulRef, gfClass_gfTimesX, htwo])

theorem gfTimesX_eq (a : Byte) : gfTimesX a = (a <<< 1) ^^^ if a.getLsbD 7 then 0x1B#8 else 0x00#8 := by
  unfold gfTimesX
  split <;> simp

theorem three_gfMulRef (a : Byte) : gfMulRef 3#8 a = gfMulRef 2#8 a ^^^ a := by
  rw [show (3#8 : Byte) = 2#8 ^^^ 1#8 from rfl, xor_gfMulRef, one_gfMulRef]

theorem gfMulRef_right_unique {a u v : Byte} (hu : gfMulRef a u = 1#8) (hv : gfMulRef a v = 1#8) : v = u :=
  calc v = gfMulRef v (gfMulRef a u) := by rw [hu, gfMulRef_one]
    _ = gfMulRef (gfMulRef a v) u := by rw [← gfMulRef_assoc, gfMulRef_comm v a]
    _ = u := by rw [hv, one_gfMulRef]

/-! ### Inverses: 0x03 has order 255, so every non-zero byte is a power of it (R118 (g)) -/

/-- Powers of a byte under the reference multiply. -/
def gfPow (a : Byte) : ℕ → Byte
  | 0 => 1#8
  | n + 1 => gfMulRef (gfPow a n) a

theorem gfClass_gfPow (a : Byte) (n : ℕ) : gfClass (gfPow a n) = gfClass a ^ n := by
  induction n with
  | zero => exact gfClass_one
  | succ n ih => rw [gfPow, gfClass_gfMulRef, ih, pow_succ]

theorem gfClass_pow_eq_one_iff {a : Byte} {n : ℕ} : gfClass a ^ n = 1 ↔ gfPow a n = 1#8 := by
  rw [← gfClass_gfPow, ← gfClass_one, gfClass_injective.eq_iff]

theorem orderOf_gfClass_three : orderOf (gfClass (3#8 : Byte)) = 255 := by
  have hpow : gfClass (3#8 : Byte) ^ 255 = 1 := gfClass_pow_eq_one_iff.2 (by decide +kernel)
  refine orderOf_eq_of_pow_and_pow_div_prime (by decide) hpow fun p hp hdvd => ?_
  rw [ne_eq, gfClass_pow_eq_one_iff]
  have hp' : p = 3 ∨ p = 5 ∨ p = 17 := by
    rw [show 255 = 3 * 5 * 17 from rfl, hp.dvd_mul, hp.dvd_mul] at hdvd
    simpa [Nat.prime_dvd_prime_iff_eq hp, Nat.prime_three, Nat.prime_five, show Nat.Prime 17 by norm_num,
      or_assoc] using hdvd
  rcases hp' with rfl | rfl | rfl <;> decide +kernel

theorem gfPow_three_mul_complement {n : ℕ} (hn : n ≤ 255) : gfMulRef (gfPow 3#8 n) (gfPow 3#8 (255 - n)) = 1#8 :=
  gfClass_injective <| by
    rw [gfClass_gfMulRef, gfClass_gfPow, gfClass_gfPow, ← pow_add, Nat.add_sub_cancel' hn, gfClass_one,
      ← orderOf_gfClass_three, pow_orderOf_eq_one]

theorem gfPow_three_injOn : Set.InjOn (fun n => (gfPow 3#8 n).toNat) (Finset.range 255) := by
  intro m hm n hn h
  have hpow : gfClass (3#8 : Byte) ^ m = gfClass (3#8 : Byte) ^ n := by
    rw [← gfClass_gfPow, ← gfClass_gfPow, BitVec.eq_of_toNat_eq h]
  exact pow_injOn_Iio_orderOf (by simpa [orderOf_gfClass_three] using hm)
    (by simpa [orderOf_gfClass_three] using hn) hpow

/-- The 255 powers are different and not zero, and there are only 255 bytes that are not zero. -/
theorem exists_gfPow_three_eq {a : Byte} (ha : a ≠ 0#8) : ∃ n ≤ 255, gfPow 3#8 n = a := by
  have hmaps : Set.MapsTo (fun n => (gfPow 3#8 n).toNat) (Finset.range 255) (Finset.Icc 1 255) := by
    intro n hn
    have hne : gfPow 3#8 n ≠ 0#8 := by
      intro h0
      have hone := gfPow_three_mul_complement (Finset.mem_range.1 hn).le
      simp [h0] at hone
    have hpos : (gfPow 3#8 n).toNat ≠ 0 := fun h => hne (BitVec.eq_of_toNat_eq h)
    simp only [Finset.coe_Icc, Set.mem_Icc]
    omega
  have hmem : a.toNat ∈ Finset.Icc 1 255 := by
    have hpos : a.toNat ≠ 0 := fun h => ha (BitVec.eq_of_toNat_eq h)
    exact Finset.mem_Icc.2 (by omega)
  obtain ⟨n, hn, hna⟩ := Finset.surjOn_of_injOn_of_card_le _ hmaps gfPow_three_injOn (by simp) hmem
  exact ⟨n, (Finset.mem_range.1 hn).le, BitVec.eq_of_toNat_eq hna⟩

theorem exists_gfMulRef_eq_one {a : Byte} (ha : a ≠ 0#8) : ∃ u, gfMulRef a u = 1#8 := by
  obtain ⟨n, hn, rfl⟩ := exists_gfPow_three_eq ha
  exact ⟨_, gfPow_three_mul_complement hn⟩

end Sys2Proof.Machine
end

section
/-! PROOFS. The split multiply: its reduction keeps the class of the 15-bit product, and Karatsuba's combination of three
lookups is the product of the classes (40_gf256.md R116). -/

namespace Sys2Proof.Machine
open Polynomial

/-- The part of R116's reduction that cancels bit 8 + n. -/
def cancelBit (n : ℕ) (p : BitVec 15) : BitVec 15 := if p.getLsbD (8 + n) then p ^^^ (0x11B#15 <<< n) else p

theorem reduceFrom_succ (n : ℕ) (p : BitVec 15) : reduceFrom (n + 1) p = reduceFrom n (cancelBit n p) := rfl

theorem gfClass_cancelBit {n : ℕ} (hn : n < 7) (p : BitVec 15) : gfClass (cancelBit n p) = gfClass p := by
  have hzero : gfClass (0x11B#15 <<< n) = 0 := by
    rw [gfClass_shiftLeft (n := 9) (by decide) (by omega),
      show 0x11B#15 = (0x11B#9).setWidth 15 from rfl, gfClass_setWidth (by decide), gfClass_0x11B, mul_zero]
  unfold cancelBit
  split <;> simp [hzero]

theorem cancelBit_lt {n : ℕ} (hn : n < 7) {p : BitVec 15} (hp : p.toNat < 2 ^ (8 + (n + 1))) :
    (cancelBit n p).toNat < 2 ^ (8 + n) := by
  refine Nat.lt_pow_two_of_testBit _ fun i hi => ?_
  rw [BitVec.testBit_toNat]
  unfold cancelBit
  rcases hi.eq_or_lt with rfl | hlt
  · have htop : (0x11B#15 <<< n).getLsbD (8 + n) = true := by simp; omega
    split <;> simp_all
  · have hhigh : (0x11B#15 <<< n).getLsbD i = false := by
      have hbit : (0x11B#15).getLsbD (i - n) = false := getLsbD_of_toNat_lt (n := 9) (by decide) (by omega)
      simp [BitVec.getLsbD_shiftLeft, hbit]
    have hpi : p.getLsbD i = false := getLsbD_of_toNat_lt hp hlt
    split <;> simp [hpi, hhigh]

theorem reduceFrom_spec (n : ℕ) (hn : n ≤ 7) (p : BitVec 15) (hp : p.toNat < 2 ^ (8 + n)) :
    gfClass (reduceFrom n p) = gfClass p ∧ (reduceFrom n p).toNat < 2 ^ 8 := by
  induction n generalizing p with
  | zero => exact ⟨rfl, hp⟩
  | succ n ih =>
    rw [reduceFrom_succ, ← gfClass_cancelBit hn p]
    exact ih (by omega) _ (cancelBit_lt hn hp)

theorem gfClass_reduce15 (p : BitVec 15) : gfClass (reduce15 p) = gfClass p := by
  obtain ⟨hclass, hlt⟩ := reduceFrom_spec 7 le_rfl p p.isLt
  rw [reduce15, gfClass_setWidth hlt, hclass]

/-- The product of two nibbles has degree at most 6. -/
theorem gfMulRef_nibbles_lt {a b : Byte} (ha : a.toNat < 2 ^ 4) (hb : b.toNat < 2 ^ 4) :
    (gfMulRef a b).toNat < 2 ^ 7 := by
  have hdeg : (polyOf a * polyOf b).natDegree ≤ 6 :=
    natDegree_mul_le_of_le (polyOf_natDegree_le ha) (polyOf_natDegree_le hb)
  have hself : (polyOf a * polyOf b) %ₘ gfModulus = polyOf a * polyOf b :=
    (modByMonic_eq_self_iff gfModulus_monic).2 (degree_lt_degree (by rw [gfModulus_natDegree]; omega))
  exact toNat_lt_of_polyOf_natDegree_le (by rwa [polyOf_gfMulRef, hself])

theorem ushiftRight_four_lt (a : Byte) : (a >>> 4).toNat < 2 ^ 4 := by
  rw [BitVec.toNat_ushiftRight, Nat.shiftRight_eq_div_pow]
  omega

theorem eq_nibbles (a : Byte) : a = (a &&& 0x0F#8) ^^^ ((a >>> 4) <<< 4) := by
  revert a
  decide

theorem gfClass_eq_nibbles (a : Byte) : gfClass a = gfClass (a &&& 0x0F#8) + gfX ^ 4 * gfClass (a >>> 4) := by
  rw [← gfClass_shiftLeft (ushiftRight_four_lt a) (show 4 + 4 ≤ 8 by decide), ← gfClass_xor, ← eq_nibbles]

/-- Karatsuba's combination is the product of the classes. -/
theorem gfClass_gfMulFast (a b : Byte) : gfClass (gfMulFast .complete a b) = gfClass a * gfClass b := by
  have hmiddle (c : Byte) : gfClass (c.setWidth 15 <<< 4) = gfX ^ 4 * gfClass (c.setWidth 15) :=
    gfClass_shiftLeft (toNat_setWidth_lt c.isLt 15) (by decide)
  have hhigh : gfClass ((gfMulRef (a >>> 4) (b >>> 4)).setWidth 15 <<< 8) =
      gfX ^ 8 * gfClass ((gfMulRef (a >>> 4) (b >>> 4)).setWidth 15) :=
    gfClass_shiftLeft
      (toNat_setWidth_lt (gfMulRef_nibbles_lt (ushiftRight_four_lt a) (ushiftRight_four_lt b)) 15) (by decide)
  have hclass (c : Byte) : gfClass (c.setWidth 15) = gfClass c := gfClass_setWidth (by omega)
  simp only [gfMulFast, tableRead, gfClass_reduce15, gfClass_xor, hmiddle, hhigh, hclass, gfClass_gfMulRef]
  rw [gfClass_eq_nibbles a, gfClass_eq_nibbles b]
  linear_combination gfX ^ 4 *
    (gfClass (a &&& 0x0F#8) * gfClass (b &&& 0x0F#8) + gfClass (a >>> 4) * gfClass (b >>> 4)) * gf_two_eq_zero

/-- On the complete table the split multiply is the reference multiply (R118 (b)). -/
theorem gfMulFast_complete (a b : Byte) : gfMulFast .complete a b = gfMulRef a b :=
  gfClass_injective ((gfClass_gfMulFast a b).trans (gfClass_gfMulRef a b).symm)

/-- Settles O31: laws of the field product, carried to bytes by their classes. -/
theorem gfMultiplierLaws : Obligations.GfMultiplierLaws := by
  refine ⟨gfMulRef_comm, gfMulFast_complete, fun a => ⟨gfMulRef_zero a, gfMulRef_one a⟩, gfMulRef_xor,
    fun a => (two_gfMulRef a).trans (gfTimesX_eq a), three_gfMulRef, fun a ha => ?_, by decide⟩
  obtain ⟨u, hu⟩ := exists_gfMulRef_eq_one ha
  exact ⟨u, hu, fun v hv => gfMulRef_right_unique hu hv⟩

end Sys2Proof.Machine
end

section
/-! PROOFS. The commands of GFM (40_gf256.md R114, R115, R117). -/

namespace Sys2Proof.Machine

/-- A word of format G as R115 and R117 write it: both sides have the same bit at each position, byte by byte. -/
theorem wordG_eq_or (op a b : Byte) :
    wordG op a b = op.setWidth 32 ||| (a.setWidth 32 <<< 8) ||| (b.setWidth 32 <<< 16) := by
  refine BitVec.eq_of_getLsbD_eq fun i hi => ?_
  rw [wordG]
  simp only [BitVec.getLsbD_append, BitVec.getLsbD_or, BitVec.getLsbD_shiftLeft, BitVec.getLsbD_setWidth, hi]
  grind

/-- Settles O27: `ensureTable` writes the table when TBL_READY is clear and nothing when it is set. -/
theorem gfinitBuildsTableOnce : Obligations.GfinitBuildsTableOnce := by
  refine ⟨rfl, fun s hs => ?_⟩
  rw [exec_eq_command, command_of_safe hs]
  exact ⟨fun ht => by simp [ruleOf, gfinitRule, ensureTable, complete, ht],
    fun ht => by simp [ruleOf, gfinitRule, ensureTable, complete, ht]⟩

theorem exec_gfmul {s : State} (hs : s.safe) (ht : s.tableInv) (a b : Byte) :
    exec (.gfmul a b) s =
      .next { s with gft := .complete, tblReady := true, gfp := gfMulRef a b, result := .ok } := by
  rw [exec_eq_command, command_of_safe hs, ruleOf, gfmulRule, ensureTable_eq ht]
  rfl

theorem exec_gfmulf {s : State} (hs : s.safe) (ht : s.tableInv) (a b : Byte) :
    exec (.gfmulf a b) s =
      .next { s with gft := .complete, tblReady := true, gfp := gfMulRef a b, result := .ok } := by
  rw [exec_eq_command, command_of_safe hs, ruleOf, gfmulfRule, ensureTable_eq ht, ← gfMulFast_complete]
  rfl

/-- Settles O28: the command is one lookup in the complete table, and the corner cases are laws of the product. -/
theorem gfmulLeavesProduct : Obligations.GfmulLeavesProduct :=
  ⟨wordG_eq_or 0x02#8, fun _ a b hs ht => exec_gfmul hs ht a b,
    fun a => ⟨gfMulRef_zero a, zero_gfMulRef a, gfMulRef_one a, one_gfMulRef a⟩, by decide⟩

/-- Settles O29: on the complete table the split multiply is the direct one. -/
theorem gfmulfLeavesSameProduct : Obligations.GfmulfLeavesSameProduct :=
  ⟨wordG_eq_or 0x03#8, fun a b _ _ => gfMulFast_complete a b,
    fun _ a b hs ht => ⟨exec_gfmulf hs ht a b, (exec_gfmulf hs ht a b).trans (exec_gfmul hs ht a b).symm⟩⟩

end Sys2Proof.Machine
end

section
/-! PROOFS. The S-box: the inverse in the field, then the affine map (41_block_cipher.md R132). -/

namespace Sys2Proof.Machine

/-- The affine map of R132. -/
def affineMap (u : Byte) : Byte :=
  u ^^^ u.rotateLeft 1 ^^^ u.rotateLeft 2 ^^^ u.rotateLeft 3 ^^^ u.rotateLeft 4 ^^^ 0x63#8

/-- The affine map undone. -/
def affineUndo (b : Byte) : Byte := b.rotateLeft 1 ^^^ b.rotateLeft 3 ^^^ b.rotateLeft 6 ^^^ 0x05#8

theorem affineMap_affineUndo (b : Byte) : affineMap (affineUndo b) = b := by
  revert b
  decide +kernel

theorem affineUndo_sbox_zero : affineUndo (sbox 0#8) = 0#8 := by decide

/-- The table of R131 holds inverses: undoing the affine map on an entry gives the inverse of its index. -/
theorem gfMulRef_affineUndo_sbox {v : Byte} (hv : v ≠ 0#8) : gfMulRef v (affineUndo (sbox v)) = 1#8 := by
  revert v
  decide +kernel

theorem sbox_eq_affineMap {v u : Byte} (h0 : v = 0#8 → u = 0#8) (h1 : v ≠ 0#8 → gfMulRef v u = 1#8) :
    sbox v = affineMap u := by
  have hu : u = affineUndo (sbox v) := by
    by_cases hv : v = 0#8
    · rw [h0 hv, hv, affineUndo_sbox_zero]
    · exact gfMulRef_right_unique (gfMulRef_affineUndo_sbox hv) (h1 hv)
  rw [hu, affineMap_affineUndo]

theorem eq_zero_of_sbox_eq_sbox_zero {v : Byte} (h : sbox v = sbox 0#8) : v = 0#8 := by
  by_contra hv
  have hone := gfMulRef_affineUndo_sbox hv
  rw [h, affineUndo_sbox_zero, gfMulRef_zero] at hone
  exact absurd hone (by decide)

/-- Bytes with the same entry have the same inverse. -/
theorem sbox_injective {v w : Byte} (h : sbox v = sbox w) : v = w := by
  by_cases hv : v = 0#8
  · subst hv
    exact (eq_zero_of_sbox_eq_sbox_zero h.symm).symm
  by_cases hw : w = 0#8
  · subst hw
    exact absurd (eq_zero_of_sbox_eq_sbox_zero h) hv
  have hinv_v : gfMulRef (affineUndo (sbox v)) v = 1#8 := by rw [gfMulRef_comm, gfMulRef_affineUndo_sbox hv]
  have hinv_w : gfMulRef (affineUndo (sbox v)) w = 1#8 := by rw [h, gfMulRef_comm, gfMulRef_affineUndo_sbox hw]
  exact gfMulRef_right_unique hinv_w hinv_v

theorem sbox_ne_self (v : Byte) : sbox v ≠ v := by
  revert v
  decide +kernel

/-- Settles O32: the affine map can be undone, and undone on the table it leaves inverses, of which a byte has one. -/
theorem sboxIsInverseThenAffine : Obligations.SboxIsInverseThenAffine :=
  ⟨fun _ _ => sbox_eq_affineMap, fun _ _ => sbox_injective, sbox_ne_self⟩

end Sys2Proof.Machine
end

section
/-! PROOFS. The key schedule: its words as they stand in RK, and the recurrence that makes them (41_block_cipher.md
R139). -/

namespace Sys2Proof.Machine

/-! ### Words packed into a schedule -/

theorem extractLsb'_appendWord_zero (rk : Schedule) (w : Word) : (appendWord rk w).extractLsb' 0 32 = w := by
  ext i hi
  simp [appendWord, hi]
  omega

theorem extractLsb'_appendWord_succ (rk : Schedule) (w : Word) {j : ℕ} (hj : j + 1 < 44) :
    (appendWord rk w).extractLsb' (32 * (j + 1)) 32 = rk.extractLsb' (32 * j) 32 := by
  refine BitVec.eq_of_getLsbD_eq fun i hi => ?_
  have hin : 32 * (j + 1) + i < 1408 := by omega
  have hge : ¬ 32 * (j + 1) + i < 32 := by omega
  have hpos : 32 * (j + 1) + i - 32 = 32 * j + i := by omega
  have hw : w.getLsbD (32 * (j + 1) + i) = false := BitVec.getLsbD_of_ge _ _ (by omega)
  simp only [appendWord, BitVec.getLsbD_extractLsb', BitVec.getLsbD_or, BitVec.getLsbD_shiftLeft,
    BitVec.getLsbD_setWidth, hin, hge, hpos, hw]
  simp

/-- In a schedule packed from words, newest first, word `j` counted from the end is the `j`-th of the list. -/
theorem extractLsb'_foldl_appendWord (ws : List Word) {j : ℕ} (hj : j < 44) :
    (ws.reverse.foldl appendWord 0#1408).extractLsb' (32 * j) 32 = ws.getD j 0#32 := by
  rw [List.foldl_reverse]
  induction ws generalizing j with
  | nil => simp
  | cons w ws ih =>
    rw [List.foldr_cons]
    cases j with
    | zero => exact extractLsb'_appendWord_zero _ w
    | succ j => rw [extractLsb'_appendWord_succ _ w hj, ih (by omega), List.getD_cons_succ]

theorem scheduleWord_expandKey (key : Block) (i : ℕ) :
    scheduleWord (expandKey key) i = (expandWords key).getD (43 - i) 0#32 :=
  extractLsb'_foldl_appendWord _ (by omega)

/-- Round key 0 is words 0 to 3. -/
theorem roundKey_zero_eq {rk : Schedule} {key : Block}
    (h : ∀ k < 4, scheduleWord rk k = key.extractLsb' (32 * (3 - k)) 32) : roundKey rk 0 = key := by
  refine BitVec.eq_of_getLsbD_eq fun i hi => ?_
  have hword := congrArg (BitVec.getLsbD · (i % 32)) (h (3 - i / 32) (by omega))
  have hlt : i % 32 < 32 := Nat.mod_lt i (by decide)
  have hrk : 32 * (43 - (3 - i / 32)) + i % 32 = 1280 + i := by omega
  have hkey : 32 * (3 - (3 - i / 32)) + i % 32 = i := by omega
  simpa [scheduleWord, roundKey, hlt, hi, hrk, hkey] using hword

/-! ### The words made by the loop of R139 -/

/-- The words after `n` passes of the loop, newest first: the words 0 to n + 3. -/
def wordsAfter (key : Block) (n : ℕ) : List Word := (List.range' 4 n).foldl expandStep (keyWords key)

theorem expandWords_eq (key : Block) : expandWords key = wordsAfter key 40 := rfl

theorem wordsAfter_succ (key : Block) (n : ℕ) : wordsAfter key (n + 1) = expandStep (wordsAfter key n) (4 + n) := by
  simp [wordsAfter, List.range'_1_concat]

/-- A pass changes no word made before it. -/
theorem getD_wordsAfter_add (key : Block) (n k j : ℕ) :
    (wordsAfter key (n + k)).getD (k + j) 0#32 = (wordsAfter key n).getD j 0#32 := by
  induction k with
  | zero => rw [Nat.zero_add, Nat.add_zero]
  | succ k ih => rw [← Nat.add_assoc, wordsAfter_succ, expandStep, Nat.add_right_comm, List.getD_cons_succ, ih]

/-- Word `i` of the schedule is already in the list after any `n` passes with `i ≤ n + 3`. -/
theorem scheduleWord_expandKey_of_le (key : Block) {n i : ℕ} (hi : i ≤ n + 3) (hn : n ≤ 40) :
    scheduleWord (expandKey key) i = (wordsAfter key n).getD (n + 3 - i) 0#32 := by
  obtain ⟨k, hk⟩ := Nat.exists_eq_add_of_le hn
  have hpos : 43 - i = k + (n + 3 - i) := by omega
  rw [scheduleWord_expandKey, expandWords_eq, hk, hpos, getD_wordsAfter_add]

theorem roundKey_zero_expandKey (key : Block) : roundKey (expandKey key) 0 = key := by
  refine roundKey_zero_eq fun k hk => ?_
  rw [scheduleWord_expandKey_of_le key (n := 0) (by omega) (by decide)]
  interval_cases k <;> rfl

theorem scheduleWord_recurrence (key : Block) {i : ℕ} (h4 : 4 ≤ i) (h43 : i ≤ 43) :
    scheduleWord (expandKey key) i =
      scheduleWord (expandKey key) (i - 4) ^^^ keyTemp i (scheduleWord (expandKey key) (i - 1)) := by
  obtain ⟨n, rfl⟩ := Nat.exists_eq_add_of_le h4
  have hback : n + 3 - (4 + n - 4) = 3 := by omega
  have hlast : n + 3 - (4 + n - 1) = 0 := by omega
  have hnew : n + 1 + 3 - (4 + n) = 0 := by omega
  rw [scheduleWord_expandKey_of_le key (n := n + 1) (by omega) (by omega),
    scheduleWord_expandKey_of_le key (n := n) (i := 4 + n - 4) (by omega) (by omega),
    scheduleWord_expandKey_of_le key (n := n) (i := 4 + n - 1) (by omega) (by omega),
    hback, hlast, hnew, wordsAfter_succ, expandStep, List.getD_cons_zero]

/-- Settles O33: a word of the schedule is the one its pass put in front, made from the words before it. -/
theorem keyScheduleRecurrence : Obligations.KeyScheduleRecurrence :=
  fun key => ⟨roundKey_zero_expandKey key, fun _ h4 h43 => scheduleWord_recurrence key h4 h43⟩

end Sys2Proof.Machine
end

section
/-! PROOFS. The round transforms byte by byte (41_block_cipher.md R134 to R137). -/

namespace Sys2Proof.Machine

@[simp] theorem blockByte_subBytes (s : Block) {n : ℕ} (hn : n < 16) :
    blockByte (subBytes s) n = sbox (blockByte s n) :=
  blockByte_blockOfFn _ hn

theorem blockByte_shiftRows (s : Block) {c r : ℕ} (hc : c < 4) (hr : r < 4) :
    blockByte (shiftRows s) (4 * c + r) = blockByte s (4 * ((c + r) % 4) + r) := by
  have hcol : (4 * c + r) / 4 = c := by omega
  have hrow : (4 * c + r) % 4 = r := by omega
  rw [shiftRows, blockByte_blockOfFn _ (by omega), hcol, hrow]

theorem blockByte_mixColumns (t : GfTable) (s : Block) {c r : ℕ} (hc : c < 4) (hr : r < 4) :
    blockByte (mixColumns t s) (4 * c + r) =
      mixRow t (blockByte s (4 * c)) (blockByte s (4 * c + 1)) (blockByte s (4 * c + 2))
        (blockByte s (4 * c + 3)) r := by
  have hcol : (4 * c + r) / 4 = c := by omega
  have hrow : (4 * c + r) % 4 = r := by omega
  rw [mixColumns, blockByte_blockOfFn _ (by omega), hcol, hrow]

theorem blockByte_roundKey (rk : Schedule) {r n : ℕ} (hr : r ≤ 10) (hn : n < 16) :
    blockByte (roundKey rk r) n = rk.extractLsb' (8 * (175 - (16 * r + n))) 8 := by
  refine BitVec.eq_of_getLsbD_eq fun i hi => ?_
  have hin : 8 * (15 - n) + i < 128 := by omega
  have hpos : 128 * (10 - r) + (8 * (15 - n) + i) = 8 * (175 - (16 * r + n)) + i := by omega
  simp only [blockByte_getLsbD, roundKey, BitVec.getLsbD_extractLsb', hin, hpos, decide_true, Bool.true_and]

theorem blockByte_addRoundKey (s : Block) (rk : Schedule) {r n : ℕ} (hr : r ≤ 10) (hn : n < 16) :
    blockByte (addRoundKey s rk r) n = blockByte s n ^^^ rk.extractLsb' (8 * (175 - (16 * r + n))) 8 := by
  rw [addRoundKey, blockByte_xor, blockByte_roundKey rk hr hn]

/-- Settles O34: each transform gives a byte by its formula; on the complete table a lookup is the product. -/
theorem roundTransformsByteByByte : Obligations.RoundTransformsByteByByte := by
  intro s rk
  refine ⟨fun n hn => blockByte_subBytes s hn, fun c hc r hr => blockByte_shiftRows s hc hr, fun c hc => ?_,
    fun r hr n hn => blockByte_addRoundKey s rk hr hn⟩
  have hbyte (r : ℕ) (hr : r < 4) := blockByte_mixColumns .complete s hc hr
  exact ⟨hbyte 0 (by decide), hbyte 1 (by decide), hbyte 2 (by decide), hbyte 3 (by decide)⟩

end Sys2Proof.Machine
end

section
/-! PROOFS. The commands of BCC (41_block_cipher.md R142, R144, R145). -/

namespace Sys2Proof.Machine

/-- A command that needs the key raises CONTRACT without one (60_exceptions.md R213). -/
theorem exec_withKey_of_invalid {s : State} {i : Instr} {rule : State → State} (hs : s.safe)
    (hi : ruleOf i = withKey rule) (hk : s.keyValid = false) :
    exec i s = .next { s with fatal := true, result := .contract } := by
  rw [exec_eq_command, command_of_safe hs, hi, withKey_of_invalid hk]
  rfl

theorem exec_withKey_of_valid {s : State} {i : Instr} {rule : State → State} (hs : s.safe)
    (hi : ruleOf i = withKey rule) (hk : s.keyValid = true) : exec i s = .next (rule s) := by
  rw [exec_eq_command, command_of_safe hs, hi, withKey_of_valid hk]

/-- Settles O36: KLOAD's rule branches on KEY_VALID. -/
theorem kloadTakesStagedKey : Obligations.KloadTakesStagedKey := by
  refine ⟨rfl, fun s hs => ?_⟩
  rw [exec_eq_command, command_of_safe hs]
  exact ⟨fun hk => by simp [ruleOf, kloadRule, complete, hk],
    fun hk => by simp [ruleOf, kloadRule, raiseContract, hk]⟩

/-- Settles O37: `ensureRk` leaves RK the schedule of KEY, cached or not. -/
theorem kexpExpandsKey : Obligations.KexpExpandsKey := by
  refine ⟨rfl, fun s hs => ⟨exec_withKey_of_invalid hs rfl, fun hc hk => ?_⟩⟩
  rw [exec_withKey_of_valid hs rfl hk, kexpRule, ensureRk_eq hc.table hc.schedule]
  rfl

/-- Settles O38: after `ensureRk` the block is encrypted with the complete table and the schedule of KEY. -/
theorem encblkEncryptsBlkin : Obligations.EncblkEncryptsBlkin := by
  refine ⟨rfl, fun s hs => ⟨exec_withKey_of_invalid hs rfl, fun hc hk => ?_⟩⟩
  rw [exec_withKey_of_valid hs rfl hk, encblkRule, ensureRk_eq hc.table hc.schedule]
  rfl

end Sys2Proof.Machine
end

section
/-! PROOFS. The counter block and CTRINC (42_ctr_ghash.md R161, R162): how one addition carries from byte to byte. -/

namespace Sys2Proof.Machine

theorem blockByte_toNat (x : Block) (k : ℕ) : (blockByte x k).toNat = x.toNat / 256 ^ (15 - k) % 256 := by
  simp [blockByte, Nat.shiftRight_eq_div_pow, pow_mul]

/-- Adding one to a number carries out of its `n` lowest bytes exactly when they are all 255. -/
theorem pow_dvd_succ_iff (a n : ℕ) : 256 ^ n ∣ a + 1 ↔ ∀ i < n, a / 256 ^ i % 256 = 255 := by
  induction n with
  | zero => simp
  | succ n ih =>
    rw [Nat.forall_lt_succ_right, ← ih]
    constructor
    · intro h
      have hn : 256 ^ n ∣ a + 1 := (pow_dvd_pow 256 n.le_succ).trans h
      have hd : 256 ∣ (a + 1) / 256 ^ n := (Nat.dvd_div_iff_mul_dvd hn).2 (by rwa [← pow_succ])
      rw [Nat.succ_div_of_dvd hn] at hd
      exact ⟨hn, by omega⟩
    · rintro ⟨hn, hd⟩
      rw [pow_succ, ← Nat.dvd_div_iff_mul_dvd hn, Nat.succ_div_of_dvd hn]
      omega

theorem laterBytes_eq_ff_iff (c : Block) (k : ℕ) :
    (∀ j, k < j → j < 16 → blockByte c j = 0xFF#8) ↔ 256 ^ (15 - k) ∣ c.toNat + 1 := by
  simp only [pow_dvd_succ_iff, ← BitVec.toNat_inj, blockByte_toNat]
  constructor
  · intro h i hi
    have hbyte := h (15 - i) (by omega) (by omega)
    rwa [show 15 - (15 - i) = i by omega] at hbyte
  · exact fun h j hkj hj => h (15 - j) (by omega)

theorem blockByte_inc128_toNat (c : Block) (k : ℕ) :
    (blockByte (inc128 c) k).toNat = (c.toNat + 1) / 256 ^ (15 - k) % 256 := by
  have hpow : 2 ^ 128 = 256 ^ (15 - k) * (256 * 256 ^ (15 - (15 - k))) := by
    rw [mul_left_comm, ← pow_add, show 15 - k + (15 - (15 - k)) = 15 by omega]
    norm_num
  rw [blockByte_toNat, inc128, BitVec.toNat_ofNat, Nat.mod_mod, hpow, Nat.mod_mul_right_div_self,
    Nat.mod_mul_right_mod]

theorem blockByte_inc128_of_carry {c : Block} {k : ℕ} (h : 256 ^ (15 - k) ∣ c.toNat + 1) :
    blockByte (inc128 c) k = blockByte c k + 1#8 := by
  apply BitVec.eq_of_toNat_eq
  rw [blockByte_inc128_toNat, Nat.succ_div_of_dvd h, BitVec.toNat_add, blockByte_toNat]
  simp

theorem blockByte_inc128_of_no_carry {c : Block} {k : ℕ} (h : ¬ 256 ^ (15 - k) ∣ c.toNat + 1) :
    blockByte (inc128 c) k = blockByte c k := by
  apply BitVec.eq_of_toNat_eq
  rw [blockByte_inc128_toNat, Nat.succ_div_of_not_dvd h, blockByte_toNat]

/-- Settles O42: the addition carries into byte `k` exactly when every later byte is 0xFF. -/
theorem counterCarriesAcrossAllBytes : Obligations.CounterCarriesAcrossAllBytes := by
  refine ⟨fun c k _ => ⟨fun h => ?_, fun j hkj hj hne => ?_⟩, fun c => ?_, by decide⟩
  · exact blockByte_inc128_of_carry ((laterBytes_eq_ff_iff c k).1 h)
  · exact blockByte_inc128_of_no_carry fun h => hne ((laterBytes_eq_ff_iff c k).2 h j hkj hj)
  · rw [inc128, BitVec.toNat_ofNat, Nat.mod_mod]

/-- Settles O41: `Inc128` is addition of one modulo 2^128. -/
theorem ctrincAddsOne : Obligations.CtrincAddsOne := by
  refine ⟨rfl, fun s hs => ?_⟩
  rw [exec_eq_command, command_of_safe hs, ← inc128_eq]
  rfl

end Sys2Proof.Machine
end

section
/-! PROOFS. HDERIVE (42_ctr_ghash.md R172). -/

namespace Sys2Proof.Machine

/-- Settles O40: `ensureH` leaves H the encryption of the zero block under KEY, cached or not. -/
theorem hderiveDerivesSubkey : Obligations.HderiveDerivesSubkey := by
  refine ⟨rfl, fun s hs => ⟨exec_withKey_of_invalid hs rfl, fun hc hf hk => ?_⟩⟩
  rw [exec_withKey_of_valid hs rfl hk, hderiveRule, ensureH_eq hc hf]
  rfl

end Sys2Proof.Machine
end

section
/-! PROOFS. The counter-mode transform (42_ctr_ghash.md R163), byte by byte. -/

namespace Sys2Proof.Machine

theorem getD_xorBytes {xs ys : List Byte} {n : ℕ} (hx : n < xs.length) (hy : n < ys.length) :
    (xorBytes xs ys).getD n 0#8 = xs.getD n 0#8 ^^^ ys.getD n 0#8 := by
  simp [xorBytes, hx, hy]

theorem getD_blockBytes (x : Block) {k : ℕ} (hk : k < 16) : (blockBytes x).getD k 0#8 = blockByte x k := by
  rw [List.getD_eq_getElem _ _ (by simpa using hk), blockBytes_getElem]

theorem getD_drop_take (d : List Byte) (m : ℕ) {n k : ℕ} (hk : k < n) :
    ((d.drop m).take n).getD k 0#8 = d.getD (m + k) 0#8 := by
  simp only [List.getD_eq_getElem?_getD, List.getElem?_take_of_lt hk, List.getElem?_drop]

/-- Byte `n` meets byte n mod 16 of the keystream block that is n / 16 counter values on. -/
theorem getD_ctrXorChunks (t : GfTable) (rk : Schedule) (ctr : Block) {d : List Byte} {n : ℕ} (hn : n < d.length) :
    (ctrXorChunks t rk ctr (chunks16 d)).getD n 0#8 =
      d.getD n 0#8 ^^^ blockByte (encryptBlock t (ctr + BitVec.ofNat 128 (n / 16)) rk) (n % 16) := by
  induction n using Nat.strong_induction_on generalizing d ctr with
  | _ n ih =>
    rw [chunks16_cons (List.ne_nil_of_length_pos (by omega)), ctrXorChunks]
    obtain h | h := lt_or_ge n 16
    · have hfirst : n < (d.take 16).length := by simp; omega
      have hbyte : (d.take 16).getD n 0#8 = d.getD n 0#8 := by simpa using getD_drop_take d 0 h
      rw [List.getD_append _ _ _ _ (by simp; omega), getD_xorBytes hfirst (by simpa using h), hbyte,
        getD_blockBytes _ h, Nat.div_eq_of_lt h, Nat.mod_eq_of_lt h, BitVec.add_zero]
    · have hlen : (xorBytes (d.take 16) (blockBytes (encryptBlock t ctr rk))).length = 16 := by simp; omega
      have hbyte : (d.drop 16).getD (n - 16) 0#8 = d.getD n 0#8 := by simp [h]
      have hctr : inc128 ctr + BitVec.ofNat 128 ((n - 16) / 16) = ctr + BitVec.ofNat 128 (n / 16) := by
        rw [inc128_eq, BitVec.add_assoc, ← BitVec.ofNat_add, show 1 + (n - 16) / 16 = n / 16 by omega]
      rw [List.getD_append_right _ _ _ _ (by omega), hlen, ih (n - 16) (by omega) _ (by simp; omega), hbyte, hctr,
        show (n - 16) % 16 = n % 16 by omega]

theorem getD_ctrXor (t : GfTable) (rk : Schedule) (iv : Iv) {d : List Byte} {n : ℕ} (hn : n < d.length) :
    (ctrXor t rk iv d).getD n 0#8 =
      d.getD n 0#8 ^^^ blockByte (encryptBlock t (counterBlock0 iv + BitVec.ofNat 128 (n / 16)) rk) (n % 16) :=
  getD_ctrXorChunks t rk _ hn

/-- Both passes XOR the same keystream byte into each byte of the data, which cancels. -/
theorem ctrXor_ctrXor (t : GfTable) (rk : Schedule) (iv : Iv) (d : List Byte) :
    ctrXor t rk iv (ctrXor t rk iv d) = d := by
  refine List.ext_getElem (by simp) fun n h h' => ?_
  rw [← List.getD_eq_getElem _ 0#8 h, ← List.getD_eq_getElem _ 0#8 h', getD_ctrXor t rk iv (by simpa using h'),
    getD_ctrXor t rk iv h', BitVec.xor_assoc, BitVec.xor_self, BitVec.xor_zero]

/-- Settles O48: the transform byte by byte; it keeps the length and undoes itself. -/
theorem ctrXorIsCounterMode : Obligations.CtrXorIsCounterMode :=
  ⟨fun _ => rfl, fun t rk iv d =>
    ⟨ctrXor_length t rk iv d, fun _ hn => getD_ctrXor t rk iv hn, ctrXor_ctrXor t rk iv d⟩⟩

end Sys2Proof.Machine
end

section
/-! PROOFS. ShiftRight1 by bytes and by bits (42_ctr_ghash.md R165). -/

namespace Sys2Proof.Machine

theorem blockByte_shiftRight1_getLsbD (v : Block) (n : ℕ) {i : ℕ} (hi : i < 8) :
    (blockByte (shiftRight1 v) n).getLsbD i = v.getLsbD (8 * (15 - n) + (i + 1)) := by
  rw [blockByte_getLsbD, decide_eq_true hi, Bool.true_and, shiftRight1, BitVec.getLsbD_ushiftRight]
  congr 1
  omega

/-- The seven low bits of a shifted byte come from the same byte. -/
theorem blockByte_shiftRight1_getLsbD_of_lt (v : Block) (n : ℕ) {i : ℕ} (hi : i < 7) :
    (blockByte (shiftRight1 v) n).getLsbD i = (blockByte v n >>> 1).getLsbD i := by
  rw [blockByte_shiftRight1_getLsbD v n (by omega), BitVec.getLsbD_ushiftRight, blockByte_getLsbD, Nat.add_comm 1 i,
    decide_eq_true (by omega), Bool.true_and]

theorem blockByte_shiftRight1_zero (v : Block) : blockByte (shiftRight1 v) 0 = blockByte v 0 >>> 1 := by
  refine BitVec.eq_of_getLsbD_eq fun i hi => ?_
  obtain h | rfl : i < 7 ∨ i = 7 := by omega
  · exact blockByte_shiftRight1_getLsbD_of_lt v 0 h
  · rw [blockByte_shiftRight1_getLsbD v 0 hi]
    simp

/-- The top bit of a shifted byte is the low bit of the byte before it. -/
theorem blockByte_shiftRight1 (v : Block) {n : ℕ} (h1 : 1 ≤ n) (hn : n < 16) :
    blockByte (shiftRight1 v) n = (blockByte v n >>> 1) ||| ((blockByte v (n - 1) &&& 1#8) <<< 7) := by
  refine BitVec.eq_of_getLsbD_eq fun i hi => ?_
  obtain h | rfl : i < 7 ∨ i = 7 := by omega
  · rw [blockByte_shiftRight1_getLsbD_of_lt v n h]
    simp [h]
  · have hpos : 8 * (15 - n) + (7 + 1) = 8 * (15 - (n - 1)) + 0 := by omega
    have hlow : (blockByte v (n - 1)).getLsbD 0 = v.getLsbD (8 * (15 - (n - 1)) + 0) := blockByte_getLsbD v (n - 1) 0
    rw [blockByte_shiftRight1_getLsbD v n hi, hpos, ← hlow]
    simp

@[simp] theorem blockBit_shiftRight1_zero (v : Block) : blockBit (shiftRight1 v) 0 = false := by
  simp [blockBit, shiftRight1]

theorem blockBit_shiftRight1_succ (v : Block) {i : ℕ} (hi : i < 127) :
    blockBit (shiftRight1 v) (i + 1) = blockBit v i := by
  simp [blockBit, shiftRight1]
  omega

/-- Settles O44: a bit moves within its byte, and the lowest one to the top of the next byte. -/
theorem shiftRightByBytesAndBits : Obligations.ShiftRightByBytesAndBits := fun v =>
  ⟨blockByte_shiftRight1_zero v, fun _ h1 hn => blockByte_shiftRight1 v h1 hn, blockBit_shiftRight1_zero v,
    fun _ hi => blockBit_shiftRight1_succ v hi⟩

end Sys2Proof.Machine
end

section
/-! PROOFS. GHASH multiplication by zero and by one, on either side, and GHMUL (42_ctr_ghash.md R166, R167). -/

namespace Sys2Proof.Machine

theorem block_ext_blockBit {x y : Block} (h : ∀ i < 128, blockBit x i = blockBit y i) : x = y :=
  BitVec.eq_of_getMsbD_eq h

@[simp] theorem blockBit_zero (i : ℕ) : blockBit 0#128 i = false := by
  simp [blockBit]

@[simp] theorem blockBit_xor (x y : Block) (i : ℕ) : blockBit (x ^^^ y) i = (blockBit x i ^^ blockBit y i) := by
  simp [blockBit]

/-- Passes that test only zero bits add nothing. -/
theorem ghMulLoop_of_bits_false {x : Block} {n : ℕ} (hx : ∀ i < n, blockBit x (127 - i) = false) (z v : Block) :
    ghMulLoop x n z v = z := by
  induction n generalizing v with
  | zero => rfl
  | succ n ih =>
    rw [ghMulLoop, hx n n.lt_succ_self, if_neg Bool.false_ne_true]
    exact ih (fun i hi => hx i (hi.trans n.lt_succ_self)) _

@[simp] theorem ghTimesX_zero : ghTimesX 0#128 = 0#128 := by decide

theorem ghMulLoop_zero_right (x : Block) (n : ℕ) (z : Block) : ghMulLoop x n z 0#128 = z := by
  induction n with
  | zero => rfl
  | succ n ih => simp [ghMulLoop, ih]

@[simp] theorem ghMul_zero (x : Block) : ghMul x 0#128 = 0#128 := ghMulLoop_zero_right x 128 0#128

@[simp] theorem zero_ghMul (h : Block) : ghMul 0#128 h = 0#128 :=
  ghMulLoop_of_bits_false (fun i _ => blockBit_zero (127 - i)) 0#128 h

/-- The block with bit `n` alone set, x^n; none is set from n = 128 on. x^0 is the field's 1. -/
def ghXPow (n : ℕ) : Block := 0x80000000000000000000000000000000#128 >>> n

theorem blockBit_ghXPow_zero : ∀ i < 128, blockBit (ghXPow 0) i = decide (i = 0) := by decide

theorem blockBit_ghXPow (n : ℕ) {i : ℕ} (hi : i < 128) : blockBit (ghXPow n) i = decide (i = n) := by
  have hshift : blockBit (ghXPow n) i = (!decide (i < n) && blockBit (ghXPow 0) (i - n)) := by
    simp [blockBit, ghXPow, hi]
  rw [hshift, blockBit_ghXPow_zero _ (by omega), Bool.eq_iff_iff]
  simp
  omega

theorem ghTimesX_ghXPow {n : ℕ} (hn : n < 127) : ghTimesX (ghXPow n) = ghXPow (n + 1) := by
  rw [ghTimesX, blockBit_ghXPow n (by decide), decide_eq_false (by omega), if_neg Bool.false_ne_true, shiftRight1,
    ghXPow, ghXPow, BitVec.shiftRight_add]

/-- Only the first pass adds anything, and it adds the other operand itself. -/
theorem one_ghMul (h : Block) : ghMul 0x80000000000000000000000000000000#128 h = h := by
  change ghMul (ghXPow 0) h = h
  rw [ghMul, ghMulLoop, blockBit_ghXPow_zero _ (by decide), ghMulLoop_of_bits_false]
  · simp
  · intro i hi
    rw [blockBit_ghXPow_zero _ (by omega), decide_eq_false (by omega)]

/-- Adding x^k when bit `k` of `x` is set copies that bit. -/
theorem blockBit_ite_xor_ghXPow (x z : Block) (k : ℕ) {i : ℕ} (hi : i < 128) :
    blockBit (if blockBit x k then z ^^^ ghXPow k else z) i = (blockBit z i ^^ (decide (i = k) && blockBit x i)) := by
  by_cases hik : i = k
  · subst hik
    cases hx : blockBit x i <;> simp [blockBit_ghXPow i hi]
  · cases hx : blockBit x k <;> simp [blockBit_ghXPow k hi, hik]

/-- The passes from bit `k` on, the running value being x^k, copy the bits of `x` from bit `k` on. After the pass of bit
127 the running value is reduced, but no pass uses it. -/
theorem blockBit_ghMulLoop_ghXPow (x : Block) {n k : ℕ} (hnk : n + k = 128) (z : Block) {v : Block}
    (hv : k < 128 → v = ghXPow k) {i : ℕ} (hi : i < 128) :
    blockBit (ghMulLoop x n z v) i = (blockBit z i ^^ (decide (k ≤ i) && blockBit x i)) := by
  induction n generalizing k z v with
  | zero => simp [ghMulLoop, show ¬ k ≤ i by omega]
  | succ n ih =>
    have hk : k < 128 := by omega
    have hnext : k + 1 < 128 → ghTimesX v = ghXPow (k + 1) := fun h => by
      rw [hv hk, ghTimesX_ghXPow (by omega)]
    rw [ghMulLoop, ih (by omega) _ hnext, show 127 - n = k by omega, hv hk, blockBit_ite_xor_ghXPow x z k hi]
    obtain h | rfl | h := lt_trichotomy i k
    · simp [show i ≠ k by omega, show ¬ k + 1 ≤ i by omega, show ¬ k ≤ i by omega]
    · simp
    · simp [show i ≠ k by omega, show k + 1 ≤ i by omega, show k ≤ i by omega]

theorem ghMul_one (x : Block) : ghMul x 0x80000000000000000000000000000000#128 = x := by
  change ghMul x (ghXPow 0) = x
  refine block_ext_blockBit fun i hi => ?_
  rw [ghMul, blockBit_ghMulLoop_ghXPow x (k := 0) rfl 0#128 (fun _ => rfl) hi]
  simp

/-- Settles O43: GHMUL is `GhMul` on BLKIN and GHOP; a zero operand makes every pass add nothing, and one copies the
other operand. -/
theorem ghmulLeavesProduct : Obligations.GhmulLeavesProduct := by
  refine ⟨rfl, fun s hs => ?_, fun v => ⟨ghMul_zero v, zero_ghMul v, ghMul_one v, one_ghMul v⟩, by decide +kernel⟩
  rw [exec_eq_command, command_of_safe hs]
  rfl

end Sys2Proof.Machine
end

section
/-! PROOFS. The blocks that GHASH absorbs (42_ctr_ghash.md R168 to R170). -/

namespace Sys2Proof.Machine

@[simp] theorem blocks16_length (d : List Byte) : (blocks16 d).length = (d.length + 15) / 16 := by
  rw [blocks16, List.length_map, chunks16_length]

theorem blockByte_blocks16 (d : List Byte) {j k : ℕ} (hj : j < (blocks16 d).length) (hk : k < 16) :
    blockByte (blocks16 d)[j] k = d.getD (16 * j + k) 0#8 := by
  simp only [blocks16, chunks16, List.getElem_map, takeChunks_getElem, blockByte_blockOfBytes _ hk,
    getD_drop_take d (16 * j) hk]

theorem lenBlock_toNat {alen clen : ℕ} (ha : alen < 2 ^ 61) (hc : clen < 2 ^ 61) :
    (lenBlock alen clen).toNat = 8 * alen * 2 ^ 64 + 8 * clen := by
  have ha' : 8 * alen < 2 ^ 64 := by omega
  have hc' : 8 * clen < 2 ^ 64 := by omega
  rw [lenBlock, BitVec.toNat_append, BitVec.toNat_ofNat, BitVec.toNat_ofNat, Nat.mod_eq_of_lt ha', Nat.mod_eq_of_lt hc',
    ← Nat.shiftLeft_add_eq_or_of_lt hc', Nat.shiftLeft_eq]

theorem ghash_eq_foldl (h : Block) (aad c : List Byte) :
    ghash h aad c = (blocks16 aad ++ blocks16 c ++ [lenBlock aad.length c.length]).foldl (ghashAbsorb h) 0#128 := by
  simp only [ghash, List.foldl_append, List.foldl_cons, List.foldl_nil]

/-- With both strings empty only the length block is absorbed, and it is zero. -/
theorem ghash_nil_nil (h : Block) : ghash h [] [] = 0#128 := by
  have hlen : lenBlock 0 0 = 0#128 := by decide
  simp [ghash_eq_foldl, blocks16, ghashAbsorb, hlen]

/-- Settles O47: GHASH is one fold over the blocks of the AAD, those of the ciphertext and the length block. -/
theorem ghashBlocksAndLengths : Obligations.GhashBlocksAndLengths :=
  ⟨fun d => ⟨blocks16_length d, fun _ _ hk hj => blockByte_blocks16 d hj hk⟩, fun _ _ ha hc => lenBlock_toNat ha hc,
    by decide, ghash_eq_foldl, ghash_nil_nil⟩

end Sys2Proof.Machine
end

section
/-! PROOFS. `Seal` and `Open`, and the commands AEENC, AEDEC and CLR (43_aead.md). -/

namespace Sys2Proof.Machine

/-! ### `Open` undoes `Seal` (R185) -/

/-- Settles O50: the envelope splits after its 12 bytes of IV, the tag is the one `Open` computes, and the counter
transform undoes itself. -/
theorem openOfSealGivesPlaintext : Obligations.OpenOfSealGivesPlaintext := by
  intro g rk h iv p aad
  have hiv : (ivBytes iv ++ ctrXor g rk iv p).take 12 = ivBytes iv := List.take_left' (ivBytes_length iv)
  have hc : (ivBytes iv ++ ctrXor g rk iv p).drop 12 = ctrXor g rk iv p := List.drop_left' (ivBytes_length iv)
  rw [sealMessage_tag, sealMessage_envelope, openMessage_of_eq (by rw [hc]), hiv, hc, ivOfBytes_ivBytes, ctrXor_ctrXor]

/-! ### A byte string written to a buffer -/

/-- What was written at the start of a buffer, `MemRead` gives. -/
theorem memRead_of_written {s t : State} {b : Space} {v : List Byte} {n : ℕ}
    (hm : t.mem = memoryWriteBytes s.mem (spaceBase b) v) (hr : t.resets = s.resets) (hn : v.length = n) :
    memRead t b 0 n = v := by
  rw [← hn, memRead_of_mem (s := memWrite s b 0 v) hm.symm hr.symm, memRead_memWrite]

/-- Every cell outside the bytes written at the start of a buffer is as before. -/
theorem cellByte_of_written {s t : State} {b : Space} {v : List Byte} {n : ℕ}
    (hm : t.mem = memoryWriteBytes s.mem (spaceBase b) v) (hr : t.resets = s.resets) (hn : v.length = n) {a : ℕ}
    (ha : a < spaceBase b ∨ spaceBase b + n ≤ a) : cellByte t a = cellByte s a :=
  cellByte_congr (by rw [hm, memoryRead_memoryWriteBytes_outside _ _ _ (hn ▸ ha)]) hr

/-! ### Checks and raises -/

/-- `BUF_MAX` in its range (92_eei_decisions.md D6). -/
theorem bufMax_range {c : Config} (h : c.wellFormed = true) : 12 ≤ c.bufMax ∧ c.bufMax ≤ 65536 := by
  simp only [Config.wellFormed, Bool.and_eq_true, decide_eq_true_eq] at h
  exact h.1

/-- A command that needs the key raises CONTRACT without one, and where its own rule raises it. -/
theorem exec_withKey_of_contract {s : State} {i : Instr} {rule : State → State} (hs : s.safe)
    (hi : ruleOf i = withKey rule) (h : s.keyValid = false ∨ rule s = raiseContract s) :
    exec i s = .next { s with fatal := true, result := .contract } := by
  by_cases hk : s.keyValid = true
  · rw [exec_withKey_of_valid hs hi hk, h.resolve_left (by simp [hk])]
    rfl
  · exact exec_withKey_of_invalid hs hi (by simpa using hk)

/-! ### AEENC (R186) -/

theorem aeencRule_of_over {s : State} (h : s.cfg.bufMax < s.aadlen.toNat ∨ s.cfg.bufMax < s.srclen.toNat + 12) :
    aeencRule s = raiseContract s := by
  unfold aeencRule
  obtain ha | hp := h
  · rw [if_pos ha]
  · rw [if_pos hp, ite_self]

theorem aeencRule_of_fits {s : State} (ha : s.aadlen.toNat ≤ s.cfg.bufMax)
    (hp : s.srclen.toNat + 12 ≤ s.cfg.bufMax) : aeencRule s = aeencWork s := by
  rw [aeencRule, if_neg (by omega), if_neg (by omega)]

theorem exec_aeenc_of_fits {s : State} (hs : s.safe) (hk : s.keyValid = true) (ha : s.aadlen.toNat ≤ s.cfg.bufMax)
    (hp : s.srclen.toNat + 12 ≤ s.cfg.bufMax) : exec .aeenc s = .next (aeencWork s) := by
  rw [exec_withKey_of_valid hs rfl hk, aeencRule_of_fits ha hp]

theorem aeencWork_resets {s : State} (hi : s.Inv) : (aeencWork s).resets = s.resets := by
  rw [aeencWork_eq hi.caches hi.flags]

theorem aeencWork_mem {s : State} (hi : s.Inv) :
    (aeencWork s).mem = memoryWriteBytes s.mem (spaceBase .dst) (aeencSealed s).1 := by
  rw [aeencWork_eq hi.caches hi.flags]

/-- DSTLEN does not wrap: SRCLEN and the 12 bytes of the IV fit a buffer. -/
theorem aeencWork_dstlen_toNat {s : State} (hi : s.Inv) (hp : s.srclen.toNat + 12 ≤ s.cfg.bufMax) :
    (aeencWork s).dstlen.toNat = s.srclen.toNat + 12 := by
  have hbuf := bufMax_range hi.config
  rw [aeencWork_eq hi.caches hi.flags, BitVec.toNat_add, BitVec.toNat_ofNat]
  omega

theorem aeencSealed_length (s : State) : (aeencSealed s).1.length = s.srclen.toNat + 12 := by
  rw [sealMessage_length, memRead_length, Nat.add_comm]

/-- Settles O51: a length over capacity raises before any work; else the work is `Seal` with the caches filled, and its
envelope of SRCLEN + 12 bytes is what DSTBUF gets. -/
theorem aeencSealsSrcbuf : Obligations.AeencSealsSrcbuf := by
  refine ⟨rfl, fun s hi hs => ?_⟩
  have hbuf := bufMax_range hi.config
  refine ⟨fun h => exec_withKey_of_contract hs rfl (h.imp_right fun h => aeencRule_of_over (by omega)),
    fun hk ha hp => ?_⟩
  have hp' : s.srclen.toNat + 12 ≤ s.cfg.bufMax := by omega
  have hmem := aeencWork_mem hi
  have hresets := aeencWork_resets hi
  have hlen := aeencSealed_length s
  exact ⟨aeencWork s, _, _, _, exec_aeenc_of_fits hs hk ha hp', rfl, rfl, rfl,
    by rw [aeencWork_eq hi.caches hi.flags, sealMessage_tag], aeencWork_dstlen_toNat hi hp',
    memRead_of_written hmem hresets hlen, fun a => cellByte_of_written hmem hresets hlen⟩

/-! ### AEDEC (R190) -/

theorem aedecRule_of_over {s : State} (h : s.cfg.bufMax < s.aadlen.toNat ∨ s.cfg.bufMax < s.srclen.toNat) :
    aedecRule s = raiseContract s := by
  unfold aedecRule
  obtain ha | hp := h
  · rw [if_pos ha]
  · rw [if_pos hp, ite_self]

theorem aedecRule_of_short {s : State} (ha : s.aadlen.toNat ≤ s.cfg.bufMax) (hp : s.srclen.toNat ≤ s.cfg.bufMax)
    (h : s.srclen.toNat < 12) : aedecRule s = raiseMalformed s := by
  rw [aedecRule, if_neg (by omega), if_neg (by omega), if_pos h]

theorem aedecRule_of_fits {s : State} (ha : s.aadlen.toNat ≤ s.cfg.bufMax) (hp : s.srclen.toNat ≤ s.cfg.bufMax)
    (h : 12 ≤ s.srclen.toNat) : aedecRule s = aedecWork s := by
  rw [aedecRule, if_neg (by omega), if_neg (by omega), if_neg (by omega)]

theorem exec_aedec_of_fits {s : State} (hs : s.safe) (hk : s.keyValid = true) (ha : s.aadlen.toNat ≤ s.cfg.bufMax)
    (hp : s.srclen.toNat ≤ s.cfg.bufMax) (h : 12 ≤ s.srclen.toNat) : exec .aedec s = .next (aedecWork s) := by
  rw [exec_withKey_of_valid hs rfl hk, aedecRule_of_fits ha hp h]

section
variable {s : State} {p : List Byte} (hi : s.Inv) (hopen : aedecOpened s = some p)
include hi hopen

theorem aedecWork_resets_of_some : (aedecWork s).resets = s.resets := by
  rw [aedecWork_of_some hi.caches hi.flags hopen]

theorem aedecWork_mem_of_some : (aedecWork s).mem = memoryWriteBytes s.mem (spaceBase .dst) p := by
  rw [aedecWork_of_some hi.caches hi.flags hopen]

theorem aedecWork_dstlen_toNat_of_some (h : 12 ≤ s.srclen.toNat) :
    (aedecWork s).dstlen.toNat = s.srclen.toNat - 12 := by
  rw [aedecWork_of_some hi.caches hi.flags hopen]
  exact BitVec.toNat_sub_of_le h

end

theorem aedecOpened_length {s : State} {p : List Byte} (h : aedecOpened s = some p) :
    p.length = s.srclen.toNat - 12 := by
  rw [openMessage_length h, memRead_length]

/-- Settles O52: the checks in their order, then `Open` with the caches filled, whose plaintext of SRCLEN - 12 bytes is
what DSTBUF gets. -/
theorem aedecOpensSrcbuf : Obligations.AedecOpensSrcbuf := by
  refine ⟨rfl, fun s hi hs => ⟨fun h => exec_withKey_of_contract hs rfl (h.imp_right aedecRule_of_over),
    fun hk ha hp => ?_, fun hk ha h12 hp => ?_⟩⟩
  · have hbuf := bufMax_range hi.config
    rw [exec_withKey_of_valid hs rfl hk, aedecRule_of_short ha (by omega) hp]
    rfl
  · have hrun := exec_aedec_of_fits hs hk ha hp h12
    refine ⟨_, _, _, _, rfl, rfl, rfl, rfl, fun hne => ?_, fun heq => ?_⟩
    · rw [hrun, aedecWork_of_none hi.caches hi.flags (openMessage_of_ne hne)]
    · have hopen : aedecOpened s = some _ := openMessage_of_eq heq
      have hmem := aedecWork_mem_of_some hi hopen
      have hresets := aedecWork_resets_of_some hi hopen
      have hlen := aedecOpened_length hopen
      exact ⟨aedecWork s, hrun, by rw [aedecWork_of_some hi.caches hi.flags hopen],
        aedecWork_dstlen_toNat_of_some hi hopen h12, memRead_of_written hmem hresets hlen,
        fun a => cellByte_of_written hmem hresets hlen⟩

/-! ### CLR (R195) -/

/-- Settles O57: CLR's rule writes every register that reset writes; RESULT is 0 and FATAL was clear. -/
theorem clrLeavesResetStateButTableAndBuffers : Obligations.ClrLeavesResetStateButTableAndBuffers := by
  refine ⟨rfl, fun s => ⟨fun hs => ?_, fun hf => ?_⟩⟩
  · rw [exec_eq_command, command_of_safe hs]
    simp only [ruleOf, clrRule, complete, State.reset, hs]
  · rw [exec_eq_command, command_of_fatal hf]

end Sys2Proof.Machine
end

section
/-! PROOFS. What is seen of the block while FATAL is set (60_exceptions.md R214). -/

namespace Sys2Proof.Machine

theorem exec_of_fatal {s : State} (hf : s.fatal = true) (i : Instr) : exec i s = .next s := by
  rw [exec_eq_command, command_of_fatal hf]

/-- While FATAL is set a step other than reset at most takes an input and records its answer. -/
theorem step_frame_of_fatal {s t : State} (hf : s.fatal = true) (h : step s = .next t)
    (hr : s.inputs.head? ≠ some .reset) : t = s ∨ ∃ rest r, t = answered s rest r := by
  rcases step_cases h with ⟨-, ht⟩ | ⟨rest, hi, -⟩ | ⟨rest, a, z, -, ht⟩ | ⟨rest, a, z, d, -, -, ht⟩ |
    ⟨rest, a, z, d, i, -, -, -, ht⟩ | ⟨rest, a, z, d, e, -, -, -, ht⟩ | ⟨rest, a, z, d, g, -, -, -, ht⟩
  · exact .inl ht
  · simp [hi] at hr
  · exact .inr ⟨rest, _, ht⟩
  · exact .inr ⟨rest, _, ht⟩
  · rw [exec_of_fatal (by exact hf)] at ht
    exact .inr ⟨rest, _, (Host.Outcome.next.inj ht).symm⟩
  · rw [command_of_fatal (by exact hf)] at ht
    exact .inr ⟨rest, _, (Host.Outcome.next.inj ht).symm⟩
  · exact .inr ⟨rest, _, by rw [ht, writeTarget_of_fatal (by exact hf)]⟩

/-- FATAL is sticky. -/
theorem step_keeps_fatal {s t : State} (hf : s.fatal = true) (h : step s = .next t)
    (hr : s.inputs.head? ≠ some .reset) : t.fatal = true := by
  obtain rfl | ⟨rest, r, rfl⟩ := step_frame_of_fatal hf h hr
  · exact hf
  · exact hf

/-- Settles O7: writes are gated before what they store or issue, reads by their target, and no step but reset touches
FATAL. -/
theorem contractViolationIsStickyAndGatesThePort : Obligations.ContractViolationIsStickyAndGatesThePort := by
  refine ⟨fun _ => rfl, fun s rest hf => ⟨fun a z d h => ?_, fun a z h => ?_, fun t => step_keeps_fatal hf⟩⟩
  · exact ⟨step_write_none h, step_write_of_fatal hf h⟩
  · rw [step_read h]
    refine ⟨fun hn => ?_, fun hg => ?_, fun g hg hne => ?_⟩
    · rw [busRead_of_none hn]
      rfl
    · rw [busRead_of_some hg, readTarget_status]
      rfl
    · rw [busRead_of_some hg, readTarget_of_fatal hf hne]
      rfl

end Sys2Proof.Machine
end

section
/-! PROOFS. The decoder on the spec's words, and the command words a step takes (30_encoding.md R91 to R95). -/

namespace Sys2Proof.Machine

/-- Settles O2: every command is well formed, and decoding undoes encoding. -/
theorem decodeEncodeRoundTrip : Obligations.DecodeEncodeRoundTrip := fun i _ => decode_encode i

/-- Settles O3: a word that decodes is made of its opcode, its operands and a `zero` field that is zero. -/
theorem encodeOfDecodedWord : Obligations.EncodeOfDecodedWord := fun _ _ h => (eq_encode_of_decode h).symm

/-- Settles O1: the legal words are those of their commands; the illegal ones fail at the opcode or at the `zero`
field. -/
theorem decodeOfSpecWords : Obligations.DecodeOfSpecWords :=
  ⟨decode_encode .gfinit, decode_encode (.gfmul 0x57#8 0x83#8), decode_encode (.gfmulf 0x00#8 0x12#8),
    decode_encode (.gfmulf 0x12#8 0x00#8), decode_encode .kload, decode_encode .kexp, decode_encode .encblk,
    decode_encode .hderive, decode_encode .ctrinc, decode_encode .ghmul, decode_encode .aeenc, decode_encode .aedec,
    decode_encode .clr, by decide, by decide, by decide, by decide⟩

theorem step_command_of_decode {s : State} {rest : List Input} {w : Word} {i : Instr} (hd : decode w = .ok i)
    (h : s.inputs = .bus (.write 0x00000#18 .four w) :: rest) :
    step s = exec i (answered s rest (some .writeOk)) := by
  rw [step_command h, issue_of_decode hd]

/-- Settles O5: the write to CMD issues its word, and `withFetchWord` puts that write in front. -/
theorem stepRunsDecodedCommand : Obligations.StepRunsDecodedCommand := by
  refine fun s w i hd => ⟨fun rest h => step_command_of_decode hd h, ?_⟩
  rw [State.withFetchWord, tableWord_toNat]
  exact step_command_of_decode (s := { s with inputs := commandWrite w :: s.inputs }) hd rfl

theorem issue_of_illegal {w : Word} (h : ∀ i, encode i ≠ w) (s : State) : issue w s = command raiseContract s := by
  obtain ⟨e, he⟩ := decode_eq_error_iff.2 fun i => (h i).symm
  rw [issue, he]

/-- Settles O6: no command decodes from the word, so issuing it raises CONTRACT. -/
theorem illegalWordRaisesContract : Obligations.IllegalWordRaisesContract := by
  intro s rest w hs h hw
  rw [step_command h, issue_of_illegal hw, command_of_safe (by exact hs)]
  rfl

end Sys2Proof.Machine
end

section
/-! PROOFS. What a command can do, said once for all commands, and with it which command writes which state
(30_encoding.md section 6, 10_state.md sections 3 and 5 to 7). -/

namespace Sys2Proof.Machine

/-! ### The effects of commands -/

/-- `Effect s i t`: the rule of command `i` can take `s` to `t`. One constructor per way a rule can end, with the checks
that lead there; CONTRACT is one for all commands that raise it. -/
inductive Effect (s : State) : Instr → State → Prop
  | contract {i : Instr} (hi : i ∈ [.kload, .kexp, .encblk, .hderive, .aeenc, .aedec]) : Effect s i (raiseContract s)
  | gfinit : Effect s .gfinit (complete (ensureTable s))
  | gfmul (a b : Byte) :
      Effect s (.gfmul a b) (complete { ensureTable s with gfp := gfMul (ensureTable s).gft a b })
  | gfmulf (a b : Byte) :
      Effect s (.gfmulf a b) (complete { ensureTable s with gfp := gfMulFast (ensureTable s).gft a b })
  | kload (hk : s.keyValid = false) :
      Effect s .kload (complete { s with key := s.keyin, keyin := 0#128, keyValid := true })
  | kexp (hk : s.keyValid = true) : Effect s .kexp (complete (ensureRk s))
  | encblk (hk : s.keyValid = true) (v : Block) : Effect s .encblk (complete { ensureRk s with blkout := v })
  | hderive (hk : s.keyValid = true) : Effect s .hderive (complete (ensureH s))
  | ctrinc : Effect s .ctrinc (complete { s with ctr := inc128 s.ctr })
  | ghmul : Effect s .ghmul (complete { s with blkout := ghMul s.blkin s.ghop })
  | aeenc (hk : s.keyValid = true) (ha : s.aadlen.toNat ≤ s.cfg.bufMax) (hp : s.srclen.toNat + 12 ≤ s.cfg.bufMax)
      (env : List Byte) (tag : Block) (henv : env.length = s.srclen.toNat + 12) :
      Effect s .aeenc (complete { memWrite (consumeDraw (ensureH s)) .dst 0 env with
        dstlen := s.srclen + 12#32, tagout := tag })
  | malformed : Effect s .aedec (raiseMalformed s)
  | authFail (hk : s.keyValid = true) : Effect s .aedec (raiseAuthFail (ensureH s))
  | aedec (hk : s.keyValid = true) (hp : s.srclen.toNat ≤ s.cfg.bufMax) (h12 : 12 ≤ s.srclen.toNat) (p : List Byte)
      (hlen : p.length = s.srclen.toNat - 12) :
      Effect s .aedec (complete { memWrite (ensureH s) .dst 0 p with dstlen := s.srclen - 12#32, tagout := 0#128 })
  | clr : Effect s .clr (clrRule s)

/-- A command that needs the key raises CONTRACT or has the effect of its own rule. -/
theorem effect_withKey {s : State} {i : Instr} {rule : State → State}
    (hi : i ∈ [.kexp, .encblk, .hderive, .aeenc, .aedec])
    (h : s.keyValid = true → Effect s i (rule s)) : Effect s i (withKey rule s) := by
  by_cases hk : s.keyValid = true
  · rw [withKey_of_valid hk]
    exact h hk
  · rw [withKey_of_invalid (by simpa using hk)]
    exact .contract (List.mem_cons_of_mem _ hi)

theorem effect_kloadRule (s : State) : Effect s .kload (kloadRule s) := by
  unfold kloadRule
  split
  case isTrue => exact .contract (by decide)
  case isFalse hk => exact .kload (by simpa using hk)

theorem effect_aeencRule {s : State} (hk : s.keyValid = true) : Effect s .aeenc (aeencRule s) := by
  by_cases h : s.cfg.bufMax < s.aadlen.toNat ∨ s.cfg.bufMax < s.srclen.toNat + 12
  · rw [aeencRule_of_over h]
    exact .contract (by decide)
  · rw [aeencRule_of_fits (by omega) (by omega), aeencWork]
    simp only [consumeDraw_srclen, ensureH_srclen]
    exact .aeenc hk (by omega) (by omega) _ _ (by rw [sealMessage_length, memRead_length, Nat.add_comm])

theorem effect_aedecWork {s : State} (hk : s.keyValid = true) (hp : s.srclen.toNat ≤ s.cfg.bufMax)
    (h12 : 12 ≤ s.srclen.toNat) : Effect s .aedec (aedecWork s) := by
  unfold aedecWork
  simp only [ensureH_srclen]
  split
  case h_1 => exact .authFail hk
  case h_2 p hopen => exact .aedec hk hp h12 p (by rw [openMessage_length hopen, memRead_length])

theorem effect_aedecRule {s : State} (hk : s.keyValid = true) : Effect s .aedec (aedecRule s) := by
  by_cases h : s.cfg.bufMax < s.aadlen.toNat ∨ s.cfg.bufMax < s.srclen.toNat
  · rw [aedecRule_of_over h]
    exact .contract (by decide)
  by_cases h12 : s.srclen.toNat < 12
  · rw [aedecRule_of_short (by omega) (by omega) h12]
    exact .malformed
  · rw [aedecRule_of_fits (by omega) (by omega) (by omega)]
    exact effect_aedecWork hk (by omega) (by omega)

theorem effect_ruleOf (i : Instr) (s : State) : Effect s i (ruleOf i s) := by
  cases i with
  | gfinit => exact .gfinit
  | gfmul a b => exact .gfmul a b
  | gfmulf a b => exact .gfmulf a b
  | kload => exact effect_kloadRule s
  | kexp => exact effect_withKey (by decide) .kexp
  | encblk => exact effect_withKey (by decide) fun hk => .encblk hk _
  | hderive => exact effect_withKey (by decide) .hderive
  | ctrinc => exact .ctrinc
  | ghmul => exact .ghmul
  | aeenc => exact effect_withKey (by decide) effect_aeencRule
  | aedec => exact effect_withKey (by decide) effect_aedecRule
  | clr => exact .clr

/-- A command that answers `t` either does nothing, FATAL being set, or has one of its effects. -/
theorem exec_effect {i : Instr} {s t : State} (h : exec i s = .next t) :
    (s.fatal = true ∧ t = s) ∨ (s.safe ∧ Effect s i t) := by
  by_cases hs : s.safe
  · rw [exec_eq_command, command_of_safe hs, Host.Outcome.next.injEq] at h
    exact .inr ⟨hs, h ▸ effect_ruleOf i s⟩
  · have hf : s.fatal = true := by simpa using hs
    rw [exec_eq_command, command_of_fatal hf, Host.Outcome.next.injEq] at h
    exact .inl ⟨hf, h.symm⟩

/-! ### Which command writes which state -/

/-- Settles O24: each effect of a command writes only what the command is a writer of. -/
theorem commandsWriteOnlyTheirState : Obligations.CommandsWriteOnlyTheirState := by
  intro i s t h
  obtain ⟨-, rfl⟩ | ⟨-, he⟩ := exec_effect h
  · simp
  cases he with
  | contract hi =>
    simp only [List.mem_cons, List.not_mem_nil, or_false] at hi
    rcases hi with rfl | rfl | rfl | rfl | rfl | rfl <;> simp
  | clr => simp [clrRule]
  | _ => simp

theorem Effect.mem_eq {s t : State} {i : Instr} (he : Effect s i t) (h1 : i ≠ .aeenc) (h2 : i ≠ .aedec) :
    t.mem = s.mem := by
  cases he with
  | aeenc | malformed | authFail | aedec => contradiction
  | clr => rfl
  | _ => simp

theorem Effect.resets_eq {s t : State} {i : Instr} (he : Effect s i t) : t.resets = s.resets := by
  cases he with
  | clr => rfl
  | _ => simp

/-- A command stores nothing, or a byte string at the start of DSTBUF. -/
theorem Effect.mem_cases {s t : State} {i : Instr} (he : Effect s i t) :
    t.mem = s.mem ∨ ∃ v : List Byte, t.mem = memoryWriteBytes s.mem (spaceBase .dst) v := by
  cases he with
  | aeenc _ _ _ env => exact .inr ⟨env, by simp⟩
  | aedec _ _ _ p => exact .inr ⟨p, by simp⟩
  | clr => exact .inl rfl
  | _ => exact .inl (by simp)

/-- Settles O25: the ten commands leave the list of written cells and the number of resets. -/
theorem nonAeadCommandsLeaveMemory : Obligations.NonAeadCommandsLeaveMemory := by
  intro i s t h1 h2 h
  obtain ⟨-, rfl⟩ | ⟨-, he⟩ := exec_effect h
  · exact ⟨rfl, fun _ => rfl⟩
  · have hm := he.mem_eq h1 h2
    exact ⟨hm, fun a => cellByte_congr (by rw [hm]) he.resets_eq⟩

/-- No command changes a cell below DSTBUF. -/
theorem exec_cellByte_of_lt_dst {i : Instr} {s t : State} (h : exec i s = .next t) {a : ℕ} (ha : a < spaceBase .dst) :
    cellByte t a = cellByte s a := by
  obtain ⟨-, rfl⟩ | ⟨-, he⟩ := exec_effect h
  · rfl
  refine cellByte_congr ?_ he.resets_eq
  obtain hm | ⟨v, hm⟩ := he.mem_cases
  · rw [hm]
  · rw [hm, memoryRead_memoryWriteBytes_outside _ _ _ (.inl ha)]

/-- Settles O26: AADBUF and SRCBUF lie below DSTBUF. -/
theorem noCommandWritesTheInputBuffers : Obligations.NoCommandWritesTheInputBuffers := fun i s t h off hoff =>
  ⟨exec_cellByte_of_lt_dst h (by simp only [spaceBase]; omega),
    exec_cellByte_of_lt_dst h (by simp only [spaceBase]; omega)⟩

/-! ### The random source -/

/-- AEENC after its checks takes one sample (10_state.md R44). -/
theorem aeencWork_rng (s : State) : (aeencWork s).draws = s.draws + 1 ∧ (aeencWork s).rng = s.rng.tail := by
  simp [aeencWork]

/-- Settles O23: AEENC samples after its checks, and no other effect of a command touches the random source. -/
theorem onlyAeencSamplesTheRandomSource : Obligations.OnlyAeencSamplesTheRandomSource := by
  intro i s t h
  refine ⟨fun ⟨hi, hs, hk, ha, hp⟩ => ?_, fun hno => ?_⟩
  · subst hi
    rw [exec_aeenc_of_fits hs hk ha hp, Host.Outcome.next.injEq] at h
    exact h ▸ aeencWork_rng s
  · obtain ⟨-, rfl⟩ | ⟨hs, he⟩ := exec_effect h
    · exact ⟨rfl, rfl⟩
    cases he with
    | aeenc hk ha hp => exact absurd ⟨rfl, hs, hk, ha, hp⟩ hno
    | clr => exact ⟨rfl, rfl⟩
    | _ => simp

end Sys2Proof.Machine
end

section
/-! PROOFS. The invariant of the machine under the shared operations, the effects of commands, host writes and reset,
and with that under every step (10_state.md sections 4 to 6). -/

namespace Sys2Proof.Machine

/-! ### Fields the invariant does not speak of -/

/-- `u` with everything the invariant speaks of taken from `s`. -/
def invPart (s u : State) : State :=
  { u with
    tblReady := s.tblReady
    keyValid := s.keyValid
    rkValid := s.rkValid
    hValid := s.hValid
    fatal := s.fatal
    result := s.result
    dstlen := s.dstlen
    key := s.key
    rk := s.rk
    h := s.h
    gft := s.gft
    mem := s.mem
    cfg := s.cfg }

theorem State.Inv.congr {s u : State} (h : s.Inv) (e : u = invPart s u) : u.Inv := by
  rw [e]
  exact ⟨h.config, { h.flags with }, { h.caches with }, { h.memory with }⟩

/-! ### Ends of a command -/

theorem State.Inv.complete {s : State} (h : s.Inv) (hs : s.safe) : (complete s).Inv :=
  ⟨h.config, { h.flags with fatal_iff_contract := by simp [hs] }, { h.caches with }, { h.memory with }⟩

theorem State.Inv.raiseContract {s : State} (h : s.Inv) : (raiseContract s).Inv :=
  ⟨h.config, { h.flags with fatal_iff_contract := by simp }, { h.caches with }, { h.memory with }⟩

/-- Nothing is released, so nothing need be written. -/
theorem State.MemInv.of_dstlen_zero {s t : State} (h : s.MemInv) (hm : t.mem = s.mem) (hc : t.cfg = s.cfg)
    (hd : t.dstlen = 0#32) : t.MemInv :=
  ⟨hm ▸ h.canonical, by simpa [hm, hc] using h.windows, by simp [hd], by simp [hd]⟩

theorem State.Inv.raiseMalformed {s : State} (h : s.Inv) (hs : s.safe) : (raiseMalformed s).Inv :=
  ⟨h.config, { h.flags with fatal_iff_contract := by simp [hs] }, { h.caches with },
    .of_dstlen_zero h.memory rfl rfl rfl⟩

theorem State.Inv.raiseAuthFail {s : State} (h : s.Inv) (hs : s.safe) : (raiseAuthFail s).Inv :=
  ⟨h.config, { h.flags with fatal_iff_contract := by simp [hs] }, { h.caches with },
    .of_dstlen_zero h.memory rfl rfl rfl⟩

/-! ### The caches -/

theorem State.Inv.ensureTable {s : State} (h : s.Inv) : (ensureTable s).Inv := by
  rw [ensureTable_eq h.caches.table]
  exact ⟨h.config, { h.flags with rkValid_tblReady := fun _ => rfl }, { h.caches with table := fun _ => rfl },
    { h.memory with }⟩

/-- A valid H is the subkey of the schedule of KEY. -/
theorem State.Inv.subkey_of_key {s : State} (h : s.Inv) (hv : s.hValid = true) :
    s.h = encryptBlock .complete 0#128 (expandKey s.key) := by
  rw [← h.caches.schedule (h.flags.hValid_rkValid hv)]
  exact h.caches.subkey hv

theorem State.Inv.ensureRk {s : State} (h : s.Inv) (hk : s.keyValid = true) : (ensureRk s).Inv := by
  rw [ensureRk_eq h.caches.table h.caches.schedule]
  exact ⟨h.config, ⟨fun _ => hk, fun _ => rfl, fun _ => rfl, h.flags.fatal_iff_contract⟩,
    ⟨fun _ => rfl, fun _ => rfl, h.subkey_of_key, h.caches.key_zero, nofun, h.caches.h_zero⟩, { h.memory with }⟩

theorem State.Inv.ensureH {s : State} (h : s.Inv) (hk : s.keyValid = true) : (ensureH s).Inv := by
  rw [ensureH_eq h.caches h.flags]
  exact ⟨h.config, ⟨fun _ => hk, fun _ => rfl, fun _ => rfl, h.flags.fatal_iff_contract⟩,
    ⟨fun _ => rfl, fun _ => rfl, fun _ => rfl, h.caches.key_zero, nofun, nofun⟩, { h.memory with }⟩

/-! ### Memory -/

theorem isSome_memoryRead_memoryWriteBytes_of_isSome {m : Memory} {x : ℕ} (h : (memoryRead m x).isSome = true) (a : ℕ)
    (bs : List Byte) : (memoryRead (memoryWriteBytes m a bs) x).isSome = true := by
  rw [memoryRead_memoryWriteBytes]
  split
  case isTrue hx => simp; omega
  case isFalse => exact h

theorem isSome_memoryRead_memoryWriteBytes_inside (m : Memory) (a : ℕ) (bs : List Byte) {k : ℕ} (hk : k < bs.length) :
    (memoryRead (memoryWriteBytes m a bs) (a + k)).isSome = true := by
  rw [memoryRead_memoryWriteBytes, if_pos (by omega)]
  simpa using hk

theorem inBufferWindow_of_lt {c : Config} (b : Space) {off : ℕ} (h : off < c.bufMax) :
    inBufferWindow c (spaceBase b + off) = true := by
  cases b <;> simp [inBufferWindow, spaceBase] <;> omega

section
variable {s : State} {b : Space} {off : ℕ} {v : List Byte} (h : s.MemInv) (hfit : off + v.length ≤ s.cfg.bufMax)
include h

theorem State.MemInv.wf_memWrite (b : Space) (off : ℕ) (v : List Byte) : Memory.wf (memWrite s b off v).mem :=
  memoryWriteBytes_wf h.canonical _ v

include hfit

/-- A byte string written within a buffer keeps memory inside the windows. -/
theorem State.MemInv.windows_memWrite : ∀ c ∈ (memWrite s b off v).mem, inBufferWindow s.cfg c.1 = true := by
  intro c hc
  obtain ⟨hle, hlt⟩ | hc := mem_memoryWriteBytes hc
  · obtain ⟨k, hk⟩ := Nat.exists_eq_add_of_le hle
    rw [hk, Nat.add_assoc]
    exact inBufferWindow_of_lt b (by omega)
  · exact h.windows c hc

theorem State.MemInv.memWrite : (memWrite s b off v).MemInv :=
  ⟨h.wf_memWrite b off v, h.windows_memWrite hfit, h.dstlen_le, fun k hk =>
    isSome_memoryRead_memoryWriteBytes_of_isSome (h.dst_written k hk) _ v⟩

end

theorem State.Inv.memWrite {s : State} (h : s.Inv) {b : Space} {off : ℕ} {v : List Byte}
    (hfit : off + v.length ≤ s.cfg.bufMax) : (memWrite s b off v).Inv :=
  ⟨h.config, { h.flags with }, { h.caches with }, h.memory.memWrite hfit⟩

/-- What an AEAD command releases: a byte string at the start of DSTBUF, and its length in DSTLEN. -/
theorem State.Inv.release {s : State} (h : s.Inv) {v : List Byte} {n : Word} (hfit : v.length ≤ s.cfg.bufMax)
    (hn : n.toNat = v.length) (tag : Block) :
    ({ Machine.memWrite s .dst 0 v with dstlen := n, tagout := tag } : State).Inv := by
  have hfit' : 0 + v.length ≤ s.cfg.bufMax := by omega
  refine ⟨h.config, { h.flags with }, { h.caches with }, h.memory.wf_memWrite .dst 0 v,
    h.memory.windows_memWrite hfit', ?_, fun k hk => ?_⟩
  · exact hn ▸ hfit
  · exact isSome_memoryRead_memoryWriteBytes_inside s.mem _ v (hn ▸ hk)

/-! ### Commands -/

theorem State.Inv.clrRule {s : State} (h : s.Inv) (hs : s.safe) : (clrRule s).Inv :=
  .complete ⟨h.config, ⟨nofun, nofun, nofun, h.flags.fatal_iff_contract⟩,
    ⟨h.caches.table, nofun, nofun, fun _ => rfl, fun _ => rfl, fun _ => rfl⟩,
    .of_dstlen_zero h.memory rfl rfl rfl⟩ hs

theorem Effect.inv {s t : State} {i : Instr} (he : Effect s i t) (h : s.Inv) (hs : s.safe) : t.Inv := by
  have hbuf := bufMax_range h.config
  cases he with
  | contract => exact h.raiseContract
  | gfinit => exact h.ensureTable.complete ((ensureTable_fatal s).trans hs)
  | gfmul a b | gfmulf a b => exact (h.ensureTable.congr rfl).complete ((ensureTable_fatal s).trans hs)
  | kload hk =>
    have hrk : s.rkValid ≠ true := fun hv => by simp [h.flags.rkValid_keyValid hv] at hk
    have hcore : ({ s with key := s.keyin, keyin := 0#128, keyValid := true } : State).Inv :=
      ⟨h.config, { h.flags with rkValid_keyValid := fun _ => rfl },
        { h.caches with schedule := fun hv => absurd hv hrk, key_zero := nofun }, { h.memory with }⟩
    exact hcore.complete hs
  | kexp hk => exact (h.ensureRk hk).complete ((ensureRk_fatal s).trans hs)
  | encblk hk v => exact ((h.ensureRk hk).congr rfl).complete ((ensureRk_fatal s).trans hs)
  | hderive hk => exact (h.ensureH hk).complete ((ensureH_fatal s).trans hs)
  | ctrinc | ghmul => exact (h.congr rfl).complete hs
  | aeenc hk ha hp env tag henv =>
    have hlen : (s.srclen + 12#32).toNat = env.length := by
      rw [henv, BitVec.toNat_add, BitVec.toNat_ofNat]
      omega
    have hdraw : (consumeDraw (Machine.ensureH s)).Inv := (h.ensureH hk).congr rfl
    exact (hdraw.release (by simpa [henv] using hp) hlen tag).complete ((ensureH_fatal s).trans hs)
  | malformed => exact h.raiseMalformed hs
  | authFail hk => exact (h.ensureH hk).raiseAuthFail ((ensureH_fatal s).trans hs)
  | aedec hk hp h12 p hlen =>
    have hn : (s.srclen - 12#32).toNat = p.length := by
      rw [hlen]
      exact BitVec.toNat_sub_of_le h12
    exact ((h.ensureH hk).release (by rw [ensureH_cfg]; omega) hn _).complete ((ensureH_fatal s).trans hs)
  | clr => exact h.clrRule hs

theorem exec_inv {i : Instr} {s t : State} (h : s.Inv) (he : exec i s = .next t) : t.Inv := by
  obtain ⟨-, rfl⟩ | ⟨hs, he⟩ := exec_effect he
  · exact h
  · exact he.inv h hs

/-! ### Host writes -/

/-- A cell of a buffer lies below BUF_MAX; nothing is asked of a byte of a register. -/
def cellFits (c : Config) : ByteCell → Prop
  | .reg _ _ => True
  | .buf _ off => off < c.bufMax

theorem cellFits_of_elementAt {c : Config} {a : ℕ} {x : ByteCell} (h : elementAt c a = some (.byte x)) :
    cellFits c x := by
  revert h
  fun_cases elementAt c a <;> rintro ⟨⟩ <;> simp only [cellFits] <;> omega

theorem cellFits_of_mem_targetAt {c : Config} {a : ℕ} {z : Size} {cs : List ByteCell}
    (hg : targetAt c a z = some (.cells cs)) {x : ByteCell} (hx : x ∈ cs) : cellFits c x := by
  obtain ⟨_, -, -, he⟩ := elementAt_of_mem_targetAt hg hx
  exact cellFits_of_elementAt he

theorem State.Inv.storeByteCell {s : State} (h : s.Inv) (b : Byte) {x : ByteCell} (hx : cellFits s.cfg x) :
    (storeByteCell s b x).Inv := by
  rcases storeByteCell_cases s b x with e | ⟨r, k, -, -, e⟩ | ⟨off, rfl, e⟩ | ⟨off, rfl, e⟩ <;> rw [e]
  · exact h
  · exact h.congr (by cases r <;> rfl)
  · exact h.memWrite (by simpa [cellFits] using hx)
  · exact h.memWrite (by simpa [cellFits] using hx)

theorem State.Inv.storeCells {s : State} (h : s.Inv) (d : Word) (k : ℕ) {cs : List ByteCell}
    (hcs : ∀ x ∈ cs, cellFits s.cfg x) : (storeCells s d k cs).Inv := by
  induction cs generalizing s k with
  | nil => exact h
  | cons x cs ih =>
    rw [List.forall_mem_cons] at hcs
    obtain ⟨hx, hcs⟩ := hcs
    have hcfg : (Machine.storeByteCell s (laneByte d k) x).cfg = s.cfg := by rw [storeByteCell_hostPart]; rfl
    exact ih (h.storeByteCell _ hx) (k + 1) (by rwa [hcfg])

theorem State.Inv.writeTarget {s : State} (h : s.Inv) (d : Word) {a : ℕ} {z : Size} {g : Target}
    (hg : targetAt s.cfg a z = some g) : (writeTarget s d g).Inv := by
  unfold Machine.writeTarget
  split
  · exact h
  · cases g with
    | word r => cases r <;> exact h.congr rfl
    | cells cs => exact h.storeCells d 0 fun x hx => cellFits_of_mem_targetAt hg hx

/-! ### Reset and the step -/

/-- After reset nothing is valid, released or written. -/
theorem State.Inv.applyReset {s : State} (h : s.cfg.wellFormed = true) : (applyReset s).Inv :=
  ⟨h, ⟨nofun, nofun, nofun, by simp⟩, ⟨nofun, nofun, nofun, fun _ => rfl, fun _ => rfl, fun _ => rfl⟩,
    .nil, nofun, Nat.zero_le _, nofun⟩

/-- Settles O18: nothing is valid, released or written. -/
theorem resetStateHasInvariant : Obligations.ResetStateHasInvariant :=
  ⟨by decide, ⟨nofun, nofun, nofun, by decide⟩, ⟨nofun, nofun, nofun, fun _ => rfl, fun _ => rfl, fun _ => rfl⟩,
    .nil, nofun, Nat.zero_le _, nofun⟩

/-- Settles O19: each case of a step is an operation that keeps the invariant. -/
theorem stepKeepsInvariant : Obligations.StepKeepsInvariant := by
  intro s t h hst
  have hans (rest : List Input) (r : Option Response) : (answered s rest r).Inv := h.congr rfl
  rcases step_cases hst with ⟨-, rfl⟩ | ⟨rest, -, rfl⟩ | ⟨rest, a, z, -, rfl⟩ | ⟨rest, a, z, d, -, -, rfl⟩ |
    ⟨rest, a, z, d, i, -, -, -, he⟩ | ⟨rest, a, z, d, e, -, -, -, he⟩ | ⟨rest, a, z, d, g, -, hg, -, rfl⟩
  · exact h
  · exact .applyReset h.config
  · exact hans rest _
  · exact hans rest _
  · exact exec_inv (hans rest _) he
  · cases he
    split
    · exact hans rest _
    · exact (hans rest _).raiseContract
  · exact (hans rest _).writeTarget d hg

end Sys2Proof.Machine
end

section
/-! PROOFS. Steps of the machine: that there always is a next state, what reset leaves, what only reset undoes, and the
key while it is loaded (70_reset_and_hazards.md sections 1 and 3, 43_aead.md section 1). -/

namespace Sys2Proof.Machine

/-! ### Totality -/

theorem issue_next (w : Word) (s : State) : ∃ t, issue w s = .next t := by
  obtain ⟨t, h, -⟩ := issue_answer w s
  exact ⟨t, h⟩

theorem performTransaction_next (tr : Transaction) (rest : List Input) (s : State) :
    ∃ t, performTransaction tr rest s = .next t := by
  cases tr with
  | read a z => exact ⟨_, rfl⟩
  | write a z d =>
    unfold performTransaction
    dsimp only
    split
    · exact ⟨_, rfl⟩
    · exact issue_next d _
    · exact ⟨_, rfl⟩

theorem step_next (s : State) : ∃ t, step s = .next t := by
  unfold step takeInput
  split
  · exact ⟨_, rfl⟩
  · exact ⟨_, rfl⟩
  · exact performTransaction_next _ _ s

/-- Settles O20: no arm of the step or of a command ends in a fault or a refusal. -/
theorem machineNeverStops : Obligations.MachineNeverStops := ⟨step_next, fun i s => ⟨_, exec_next i s⟩⟩

/-- Settles O39: each of the five commands is its rule behind the check of the key. -/
theorem keylessCommandsRaiseContract : Obligations.KeylessCommandsRaiseContract := by
  intro s i hs hk hi
  simp only [List.mem_cons, List.not_mem_nil, or_false] at hi
  rcases hi with rfl | rfl | rfl | rfl | rfl <;> exact exec_withKey_of_invalid hs rfl hk

/-! ### Reset -/

theorem step_reset {s : State} {rest : List Input} (h : s.inputs = .reset :: rest) :
    step s = .next (applyReset (answered s rest none)) := by
  simp only [step, takeInput, h]

/-- Settles O17: the fields of `applyReset`, by its laws. -/
theorem resetInputGivesResetState : Obligations.ResetInputGivesResetState := fun s rest h =>
  ⟨_, step_reset h, by simp [statusWord, ResultCode.bits], by simp⟩

/-! ### STATUS -/

theorem extractLsb'_eq_of_getLsbD {w n j : ℕ} {x : BitVec w} {v : BitVec j}
    (h : ∀ i < j, x.getLsbD (n + i) = v.getLsbD i) : x.extractLsb' n j = v := by
  refine BitVec.eq_of_getLsbD_eq fun i hi => ?_
  rw [BitVec.getLsbD_extractLsb', h i hi, decide_eq_true hi, Bool.true_and]

/-- Settles O15: the positions in the concatenation that makes STATUS. -/
theorem statusWordLayout : Obligations.StatusWordLayout := by
  intro s
  have hbit (i : ℕ) := congrArg (BitVec.getLsbD · i) (statusWord.eq_1 s)
  simp only [BitVec.getLsbD_append, BitVec.getLsbD_ofBool, BitVec.getLsbD_zero] at hbit
  refine ⟨by simpa using hbit 0, by simpa using hbit 1, by simpa using hbit 2, by simpa using hbit 3,
    by simpa using hbit 4, ?_, (?_ : _ = s.result.bits), ?_⟩ <;>
  · refine extractLsb'_eq_of_getLsbD fun i hi => ?_
    rw [hbit]
    interval_cases i <;> rfl

/-! ### The table -/

theorem ensureTable_of_ready {s : State} (h : s.tblReady = true) : ensureTable s = s := by
  rw [ensureTable, if_pos h]

/-- No command clears TBL_READY or changes a table that is built. -/
theorem Effect.table_of_ready {s t : State} {i : Instr} (he : Effect s i t) (h : s.tblReady = true) :
    t.tblReady = true ∧ t.gft = s.gft := by
  cases he with
  | clr => exact ⟨h, rfl⟩
  | _ => simp [ensureH, ensureRk, ensureTable_of_ready h, h]

/-- Settles O21: of the cases of a step only a command can touch the table, and none touches one that is built. -/
theorem onlyResetClearsFatalAndTable : Obligations.OnlyResetClearsFatalAndTable := by
  refine fun s t h hr => ⟨fun hf => step_keeps_fatal hf h hr, fun ht => ?_⟩
  rcases step_cases h with ⟨-, rfl⟩ | ⟨rest, hi, -⟩ | ⟨rest, a, z, -, rfl⟩ | ⟨rest, a, z, d, -, -, rfl⟩ |
    ⟨rest, a, z, d, i, -, -, -, he⟩ | ⟨rest, a, z, d, e, -, -, -, he⟩ | ⟨rest, a, z, d, g, -, hg, -, rfl⟩
  · exact ⟨ht, rfl⟩
  · simp [hi] at hr
  · exact ⟨ht, rfl⟩
  · exact ⟨ht, rfl⟩
  · obtain ⟨-, rfl⟩ | ⟨-, he⟩ := exec_effect he
    · exact ⟨ht, rfl⟩
    · exact he.table_of_ready ht
  · cases he
    split <;> exact ⟨ht, rfl⟩
  · simp [ht]

/-! ### The key -/

/-- An access that touches CMD is a 4-byte access to address 0. -/
theorem eq_zero_of_targetAt_cmd {c : Config} {a : Addr} {z : Size} (h : targetAt c a.toNat z = some (.word .cmd)) :
    a = 0x00000#18 ∧ z = .four := by
  obtain ⟨he, hz, ha⟩ := targetAt_word h
  have hlt := elementAt_cmd_iff.1 he
  refine ⟨BitVec.eq_of_toNat_eq ?_, hz⟩
  rw [BitVec.toNat_ofNat]
  omega

/-- Only CLR unloads a key or changes a loaded one. -/
theorem Effect.key_of_loaded {s t : State} {i : Instr} (he : Effect s i t) (hi : i ≠ .clr) (h : s.keyValid = true) :
    t.keyValid = true ∧ t.key = s.key := by
  cases he with
  | kload hk => simp [h] at hk
  | clr => contradiction
  | _ => simp [h]

/-- Settles O22: of the cases of a step only a command can touch the key, and KLOAD and CLR are issued by their own
words only. -/
theorem keyIsConstantWithinAnInstance : Obligations.KeyIsConstantWithinAnInstance := by
  intro s t h hr hclr
  suffices hkey : (t.keyValid = s.keyValid ∧ t.key = s.key) ∨
      (s.inputs.head? = some (.bus (.write 0x00000#18 .four 0x10#32)) ∧
        (s.keyValid = true → t.keyValid = true ∧ t.key = s.key)) by
    obtain hkey | ⟨hin, hkey⟩ := hkey
    · exact ⟨fun hv => by rwa [← hv], fun _ => hkey⟩
    · exact ⟨hkey, fun hne => absurd hin hne⟩
  rcases step_cases h with ⟨-, rfl⟩ | ⟨rest, hi, -⟩ | ⟨rest, a, z, -, rfl⟩ | ⟨rest, a, z, d, -, -, rfl⟩ |
    ⟨rest, a, z, d, i, hi, hg, hd, he⟩ | ⟨rest, a, z, d, e, -, -, -, he⟩ | ⟨rest, a, z, d, g, -, hg, -, rfl⟩
  · exact .inl ⟨rfl, rfl⟩
  · simp [hi] at hr
  · exact .inl ⟨rfl, rfl⟩
  · exact .inl ⟨rfl, rfl⟩
  · obtain ⟨rfl, rfl⟩ := eq_zero_of_targetAt_cmd hg
    obtain rfl := eq_encode_of_decode hd
    have hne : i ≠ .clr := by
      rintro rfl
      exact hclr (by rw [hi]; rfl)
    by_cases hload : i = .kload
    · subst hload
      refine .inr ⟨by rw [hi]; rfl, fun hv => ?_⟩
      obtain ⟨-, rfl⟩ | ⟨-, he⟩ := exec_effect he
      · exact ⟨hv, rfl⟩
      · exact he.key_of_loaded hne hv
    · obtain ⟨-, -, -, hkey, -⟩ := commandsWriteOnlyTheirState i _ _ he
      obtain ⟨-, hk, hv⟩ := hkey hload hne
      exact .inl ⟨hv, hk⟩
  · cases he
    left
    split <;> exact ⟨rfl, rfl⟩
  · simp

/-! ### The cipher -/

/-- Settles O35, by running the cipher on the two vectors. -/
theorem referenceCiphertexts : Obligations.ReferenceCiphertexts := ⟨by decide +kernel, by decide +kernel⟩

end Sys2Proof.Machine
end

section
/-! PROOFS. The field GF(2^128) behind the blocks: the class of a block modulo the reduction polynomial, and the
multiply of R166 as the product of classes (42_ctr_ghash.md R164, R173). -/

namespace Sys2Proof.Machine
open Polynomial

/-! ### Blocks as polynomials -/

/-- The reduction polynomial x^128 + x^7 + x^2 + x + 1 (R164). -/
noncomputable def ghModulus : (ZMod 2)[X] := X ^ 128 + X ^ 7 + X ^ 2 + X + 1

theorem ghModulus_eq : ghModulus = X ^ 128 + (X ^ 7 + X ^ 2 + X + 1) := by
  unfold ghModulus
  simp only [add_assoc]

theorem ghModulus_natDegree : ghModulus.natDegree = 128 := by
  unfold ghModulus
  compute_degree!

theorem ghModulus_monic : ghModulus.Monic := by
  unfold ghModulus
  monicity!

theorem ghModulus_degree : ghModulus.degree = 128 := by
  rw [degree_eq_natDegree ghModulus_monic.ne_zero, ghModulus_natDegree]
  rfl

/-- The polynomial of a block, bit 0 in the numbering of GHASH the constant term. -/
noncomputable def ghPoly (x : Block) : (ZMod 2)[X] := bitPoly 128 (blockBit x)

theorem ghPoly_coeff (x : Block) (i : ℕ) : (ghPoly x).coeff i = if i < 128 ∧ blockBit x i then 1 else 0 :=
  bitPoly_coeff 128 (blockBit x) i

theorem ghPoly_degree_lt (x : Block) : (ghPoly x).degree < ghModulus.degree := by
  rw [ghModulus_degree]
  exact bitPoly_degree_lt 128 (blockBit x)

theorem ghPoly_injective {x y : Block} (h : ghPoly x = ghPoly y) : x = y := by
  refine block_ext_blockBit fun i hi => ?_
  have hc := congrArg (fun p => p.coeff i) h
  simp only [ghPoly_coeff] at hc
  cases hx : blockBit x i <;> cases hy : blockBit y i <;> simp [hi, hx, hy] at hc <;> rfl

@[simp] theorem ghPoly_xor (x y : Block) : ghPoly (x ^^^ y) = ghPoly x + ghPoly y := by
  rw [ghPoly, funext (blockBit_xor x y)]
  exact bitPoly_xor 128 _ _

@[simp] theorem ghPoly_zero : ghPoly 0#128 = 0 := by
  ext i
  simp [ghPoly_coeff]

theorem ghPoly_ghXPow {n : ℕ} (hn : n < 128) : ghPoly (ghXPow n) = X ^ n := by
  ext i
  rw [ghPoly_coeff, coeff_X_pow]
  by_cases hi : i < 128
  · simp [hi, blockBit_ghXPow n hi]
  · simp [hi, show i ≠ n by omega]

/-- What R166 XORs in when a bit is shifted out is x^7 + x^2 + x + 1. -/
theorem ghPoly_reduction :
    ghPoly 0xE1000000000000000000000000000000#128 = X ^ 7 + X ^ 2 + X + 1 := by
  have hsum : 0xE1000000000000000000000000000000#128 = ghXPow 7 ^^^ ghXPow 2 ^^^ ghXPow 1 ^^^ ghXPow 0 := by decide
  rw [hsum, ghPoly_xor, ghPoly_xor, ghPoly_xor, ghPoly_ghXPow (by decide), ghPoly_ghXPow (by decide),
    ghPoly_ghXPow (by decide), ghPoly_ghXPow (by decide), pow_one, pow_zero]

/-- Multiplied by x, a polynomial has its coefficients one place up; the last one leaves the block. -/
theorem X_mul_ghPoly (v : Block) :
    X * ghPoly v = ghPoly (shiftRight1 v) + if blockBit v 127 then X ^ 128 else 0 := by
  have hout (i : ℕ) : (if blockBit v 127 then X ^ 128 else 0 : (ZMod 2)[X]).coeff i =
      if i = 128 ∧ blockBit v 127 then 1 else 0 := by
    by_cases hv : blockBit v 127 <;> simp [hv, coeff_X_pow]
  ext i
  rw [coeff_add, ghPoly_coeff, hout]
  cases i with
  | zero => simp
  | succ i =>
    rw [coeff_X_mul, ghPoly_coeff]
    obtain hi | rfl | hi := lt_trichotomy i 127
    · simp [blockBit_shiftRight1_succ v hi, show i + 1 < 128 by omega, show i < 128 by omega, show i ≠ 127 by omega]
    · simp
    · simp [show ¬ i + 1 < 128 by omega, show ¬ i < 128 by omega, show i ≠ 127 by omega]

/-! ### Classes -/

/-- A polynomial of degree below the modulus is the remainder of everything in its class. -/
theorem eq_modByMonic_of_mk_eq {m p q : (ZMod 2)[X]} (hm : m.Monic) (hp : p.degree < m.degree)
    (h : AdjoinRoot.mk m p = AdjoinRoot.mk m q) : p = q %ₘ m := by
  rw [modByMonic_eq_of_dvd_sub hm (AdjoinRoot.mk_eq_mk.1 h.symm), (modByMonic_eq_self_iff hm).2 hp]

/-- The class of a block modulo the reduction polynomial. -/
noncomputable def ghClass (x : Block) : AdjoinRoot ghModulus := AdjoinRoot.mk ghModulus (ghPoly x)

@[simp] theorem ghClass_xor (x y : Block) : ghClass (x ^^^ y) = ghClass x + ghClass y := by simp [ghClass]

@[simp] theorem ghClass_zero : ghClass 0#128 = 0 := by simp [ghClass]

/-- Different blocks are in different classes: their polynomials have degree below 128. -/
theorem ghClass_injective : Function.Injective ghClass := by
  intro x y h
  refine ghPoly_injective ?_
  rw [eq_modByMonic_of_mk_eq ghModulus_monic (ghPoly_degree_lt x) h,
    (modByMonic_eq_self_iff ghModulus_monic).2 (ghPoly_degree_lt y)]

/-- In 129 bits the running value of R166 times x is its next value, and the reduction polynomial if a bit was shifted
out. -/
theorem X_mul_ghPoly_eq_ghTimesX (v : Block) :
    X * ghPoly v = ghPoly (ghTimesX v) + if blockBit v 127 then ghModulus else 0 := by
  rw [X_mul_ghPoly, ghTimesX]
  split
  · rw [ghPoly_xor, ghPoly_reduction, ghModulus_eq, add_add_add_comm, CharTwo.add_self_eq_zero, add_zero]
  · rfl

theorem ghClass_ghTimesX (v : Block) : ghClass (ghTimesX v) = AdjoinRoot.root ghModulus * ghClass v := by
  rw [ghClass, ghClass, ← AdjoinRoot.mk_X, ← map_mul, X_mul_ghPoly_eq_ghTimesX, map_add]
  split <;> simp

/-! ### The multiply (R166) -/

/-- The polynomial of `n + 1` bits is the first bit and x times the rest. -/
theorem bitPoly_succ (n : ℕ) (f : ℕ → Bool) :
    bitPoly (n + 1) f = X * bitPoly n (fun i => f (i + 1)) + if f 0 then 1 else 0 := by
  simp only [bitPoly, Finset.sum_range_succ', Finset.mul_sum, mul_ite, mul_zero, pow_zero, pow_succ']

/-- The loop of R166 adds to `z` the product of `v` with the bits of `x` its passes see, the last `n`. -/
theorem ghClass_ghMulLoop (x : Block) {n : ℕ} (hn : n ≤ 128) (z v : Block) :
    ghClass (ghMulLoop x n z v) =
      ghClass z + AdjoinRoot.mk ghModulus (bitPoly n fun i => blockBit x (128 - n + i)) * ghClass v := by
  induction n generalizing z v with
  | zero => simp [ghMulLoop, bitPoly]
  | succ n ih =>
    have htail : (fun i => blockBit x (128 - (n + 1) + (i + 1))) = fun i => blockBit x (128 - n + i) := by
      funext i
      congr 1
      omega
    have hhead : 128 - (n + 1) + 0 = 127 - n := by omega
    rw [ghMulLoop, ih (by omega), ghClass_ghTimesX, bitPoly_succ, htail, hhead, map_add, map_mul, AdjoinRoot.mk_X]
    split
    · rw [ghClass_xor, map_one]
      ring
    · rw [map_zero]
      ring

/-- The multiply of R166 is the product in the field. -/
@[simp] theorem ghClass_ghMul (x h : Block) : ghClass (ghMul x h) = ghClass x * ghClass h := by
  rw [ghMul, ghClass_ghMulLoop x le_rfl, ghClass_zero, zero_add]
  simp only [Nat.sub_self, Nat.zero_add]
  rfl

theorem ghPoly_ghMul (x h : Block) : ghPoly (ghMul x h) = (ghPoly x * ghPoly h) %ₘ ghModulus :=
  eq_modByMonic_of_mk_eq ghModulus_monic (ghPoly_degree_lt _) (by simpa only [ghClass, map_mul] using ghClass_ghMul x h)

/-- Settles O45: the product in the field is the product of the polynomials modulo the reduction polynomial, and a block
is the only polynomial of degree below 128 in its class. -/
theorem ghMulIsPolynomialProduct : Obligations.GhMulIsPolynomialProduct := by
  intro x h
  have hmul := ghPoly_ghMul x h
  unfold ghModulus at hmul
  exact hmul

/-- Settles O46: laws of the field product, carried to blocks by their classes. -/
theorem ghMulLaws : Obligations.GhMulLaws :=
  ⟨fun x h => ghClass_injective (by simp [mul_comm]), fun x y h => ghClass_injective (by simp [add_mul]),
    fun h => ⟨zero_ghMul h, one_ghMul h⟩, fun x y h => ghClass_injective (by simp [mul_assoc])⟩

/-- Settles O49: the last block absorbed, as every other, is multiplied by H. -/
theorem ghashUnderZeroSubkeyIsZero : Obligations.GhashUnderZeroSubkeyIsZero := fun _ _ => ghMul_zero _

end Sys2Proof.Machine
end

section
/-! PROOFS. The address map as equivalences, one for each kind of element (20_memory.md R61). -/

namespace Sys2Proof.Machine

theorem elementAt_reg_iff {c : Config} {a k : ℕ} {r : BlockReg} :
    elementAt c a = some (.byte (.reg r k)) ↔ a = regBase r + k ∧ k ≤ 15 := by
  fun_cases elementAt c a <;> cases r <;> simp [*, regBase] <;> omega

theorem elementAt_buf_iff {c : Config} (hc : c.bufMax ≤ 65536) {a off : ℕ} {b : Space} :
    elementAt c a = some (.byte (.buf b off)) ↔ a = spaceBase b + off ∧ off < c.bufMax := by
  fun_cases elementAt c a <;> cases b <;> simp [*, spaceBase] <;> omega

/-- The first address of a word register. -/
def wordRegBase : WordReg → ℕ
  | .cmd => 0x00
  | .status => 0x04
  | .aadlen => 0x08
  | .srclen => 0x0C
  | .dstlen => 0x10
  | .gfp => 0x14

theorem elementAt_wordReg_iff {c : Config} {a : ℕ} {r : WordReg} :
    elementAt c a = some (.word r) ↔ wordRegBase r ≤ a ∧ a ≤ wordRegBase r + 3 := by
  fun_cases elementAt c a <;> cases r <;> simp [*, wordRegBase] <;> omega

/-- Settles O8: the rows of the word registers, of the 16-byte registers and of the buffers. -/
theorem addressMapRows : Obligations.AddressMapRows := by
  intro c a hc
  have hbuf := (bufMax_range hc).2
  have hcmd := elementAt_wordReg_iff (c := c) (a := a) (r := .cmd)
  simp only [wordRegBase, Nat.zero_le, true_and] at hcmd
  exact ⟨hcmd, elementAt_wordReg_iff, elementAt_wordReg_iff, elementAt_wordReg_iff, elementAt_wordReg_iff,
    elementAt_wordReg_iff, fun _ => elementAt_reg_iff, fun _ => elementAt_reg_iff, fun _ => elementAt_reg_iff,
    fun _ => elementAt_reg_iff, fun _ => elementAt_reg_iff, fun _ => elementAt_reg_iff, fun _ => elementAt_reg_iff,
    fun _ => elementAt_buf_iff hbuf, fun _ => elementAt_buf_iff hbuf, fun _ => elementAt_buf_iff hbuf⟩

end Sys2Proof.Machine
end

section
/-! PROOFS. Byte cells as the engine and as the port see them: what a host write of one or four bytes does to each cell,
and what a read gives (20_memory.md R62, R63). -/

namespace Sys2Proof.Machine

/-! ### The cells of an access -/

/-- An access of `n` bytes at `a` that is neither misaligned nor of a size that does not exist (R64). -/
def sizedAccess (a : ℕ) (z : Size) (n : ℕ) : Prop := (z = .one ∧ n = 1) ∨ (z = .four ∧ n = 4 ∧ a % 4 = 0)

/-- The `n` cells of a register or a buffer from `x` on. -/
def cellsFrom (n : ℕ) (x : ByteCell) : List ByteCell := (List.range n).map fun j => nextCell j x

/-- The address map has the `n` cells from `x` on at the addresses from `a` on. -/
def cellsAt (c : Config) (a n : ℕ) (x : ByteCell) : Prop := ∀ j < n, elementAt c (a + j) = some (.byte (nextCell j x))

@[simp] theorem nextCell_zero (x : ByteCell) : nextCell 0 x = x := by cases x <;> rfl

@[simp] theorem cellAddr_nextCell (j : ℕ) (x : ByteCell) : cellAddr (nextCell j x) = cellAddr x + j := by
  cases x <;> simp only [nextCell, cellAddr, Nat.add_assoc]

theorem cellsAt_reg {c : Config} {a n k : ℕ} {z : Size} {r : BlockReg} (hz : sizedAccess a z n)
    (h : elementAt c a = some (.byte (.reg r k))) : cellsAt c a n (.reg r k) := by
  obtain ⟨rfl, hk⟩ := elementAt_reg_iff.1 h
  refine fun j hj => elementAt_reg_iff.2 ⟨Nat.add_assoc _ k j, ?_⟩
  obtain ⟨-, rfl⟩ | ⟨-, rfl, halign⟩ := hz
  · omega
  · cases r <;> simp only [regBase] at halign <;> omega

theorem cellsAt_of_wellFormed {c : Config} (hc : c.wellFormed = true) {a n : ℕ} {z : Size} {x : ByteCell}
    (hz : sizedAccess a z n) (h : elementAt c a = some (.byte x)) : cellsAt c a n x := by
  intro j hj
  obtain ⟨-, rfl⟩ | ⟨-, rfl, halign⟩ := hz
  · obtain rfl : j = 0 := by omega
    simpa using h
  · exact elementAt_add hc halign hj h

theorem targetAt_of_cellsAt {c : Config} {a n : ℕ} {z : Size} {x : ByteCell} (hz : sizedAccess a z n)
    (h : cellsAt c a n x) : targetAt c a z = some (.cells (cellsFrom n x)) := by
  obtain ⟨rfl, rfl⟩ | ⟨rfl, rfl, halign⟩ := hz
  · exact targetAt_one (h 0 (by decide))
  · have hbyte (j : ℕ) (hj : j < 4) := byteCellAt_eq_some_iff.2 (h j hj)
    have h0 : elementAt c a = some (.byte (nextCell 0 x)) := h 0 (by decide)
    simp only [targetAt, halign, if_true, h0, fourCellsAt, byteCellAt_eq_some_iff.2 h0, hbyte 1 (by decide),
      hbyte 2 (by decide), hbyte 3 (by decide)]
    rfl

theorem map_cellAddr_cellsFrom (n : ℕ) (x : ByteCell) : (cellsFrom n x).map cellAddr = List.range' (cellAddr x) n := by
  rw [cellsFrom, List.map_map, List.range'_eq_map_range]
  exact List.map_congr_left fun j _ => cellAddr_nextCell j x

/-! ### What a cell holds -/

/-- The byte of a cell, in the numbering in which the engine reads registers and buffers. -/
def cellValue (s : State) : ByteCell → Byte
  | .reg r k => blockByte (readBlockReg s r) k
  | .buf b off => bufferByte s b off

/-- A byte of a 16-byte register or of a window of the address map. -/
def realCell : ByteCell → Prop
  | .reg _ k => k ≤ 15
  | .buf _ off => off < 0x10000

/-- The cells that take host writes (R66). -/
def cellWritable : ByteCell → Prop
  | .reg r _ => hostWritable r = true
  | .buf b _ => b ≠ .dst

/-- The cells that a host read shows in any state (R66). -/
def cellReadable : ByteCell → Prop
  | .reg r _ => hostReadable r = true
  | .buf b _ => b ≠ .dst

/-- With the largest buffers every such cell is on the bus. -/
theorem elementAt_standard_cellAddr {x : ByteCell} (hx : realCell x) :
    elementAt .standard (cellAddr x) = some (.byte x) := by
  cases x with
  | reg r k => exact elementAt_reg_iff.2 ⟨rfl, hx⟩
  | buf b off => exact (elementAt_buf_iff le_rfl).2 ⟨rfl, hx⟩

theorem eq_of_cellAddr_eq {x y : ByteCell} (hx : realCell x) (hy : realCell y) (h : cellAddr x = cellAddr y) :
    x = y := by
  have he := elementAt_standard_cellAddr hx
  rw [h, elementAt_standard_cellAddr hy] at he
  cases he
  rfl

theorem realCell_of_elementAt {c : Config} {a : ℕ} {x : ByteCell} (h : elementAt c a = some (.byte x)) :
    realCell x := by
  revert h
  fun_cases elementAt c a <;> rintro ⟨⟩ <;> simp only [realCell] <;> omega

/-- What a write to a writable cell stores there. -/
theorem cellValue_storeByteCell_same (s : State) (b : Byte) {x : ByteCell} (hx : realCell x) (hw : cellWritable x) :
    cellValue (storeByteCell s b x) x = b := by
  cases x with
  | reg r k =>
    simp only [realCell] at hx
    simp only [cellWritable] at hw
    rw [storeByteCell, if_pos hw, cellValue, readBlockReg_writeBlockReg_same, blockByte_setBlockByte _ _ _ (by omega),
      if_pos rfl]
  | buf sp off =>
    cases sp with
    | dst => exact absurd rfl hw
    | aad | src => simp [storeByteCell, cellValue, bufferByte, cellByte, memoryWriteBytes]

/-- A write to a cell leaves the cells at other addresses. -/
theorem cellValue_storeByteCell_ne (s : State) (b : Byte) {x y : ByteCell} (hy : realCell y)
    (h : cellAddr y ≠ cellAddr x) : cellValue (storeByteCell s b x) y = cellValue s y := by
  match x, y with
  | .reg r k, .reg r' k' =>
    simp only [realCell] at hy
    cases hw : hostWritable r
    · simp [storeByteCell, hw]
    by_cases hr : r = r'
    · subst hr
      have hk : k' ≠ k := fun e => h (by rw [e])
      rw [storeByteCell, if_pos hw, cellValue, readBlockReg_writeBlockReg_same, blockByte_setBlockByte _ _ _ (by omega),
        if_neg hk, cellValue]
    · rw [storeByteCell, if_pos hw, cellValue, readBlockReg_writeBlockReg_ne _ _ hr, cellValue]
  | .reg r k, .buf sp off => cases r <;> rfl
  | .buf sp off, .reg r k => cases sp <;> cases r <;> rfl
  | .buf sp off, .buf sp' off' =>
    cases sp <;> simp only [storeByteCell, cellValue]
    · exact cellByte_congr (memoryRead_memoryWrite_ne _ _ h) rfl
    · exact cellByte_congr (memoryRead_memoryWrite_ne _ _ h) rfl

/-- A write to a cell leaves memory at every other address, mapped or not. -/
theorem cellByte_storeByteCell_ne (s : State) (b : Byte) {x : ByteCell} {a : ℕ} (h : a ≠ cellAddr x) :
    cellByte (storeByteCell s b x) a = cellByte s a := by
  cases x with
  | reg r k => cases r <;> rfl
  | buf sp off =>
    cases sp with
    | dst => rfl
    | aad | src => exact cellByte_congr (memoryRead_memoryWrite_ne _ _ h) rfl

/-- After the lanes from lane `j` on are written to cells at rising addresses from `a + j` on, a cell there holds the
lane of its address, and every other cell what it held. -/
theorem cellValue_storeCells (s : State) (d : Word) {a j : ℕ} {cs : List ByteCell} {y : ByteCell}
    (haddr : cs.map cellAddr = List.range' (a + j) cs.length) (hcs : ∀ x ∈ cs, realCell x ∧ cellWritable x)
    (hy : realCell y) :
    cellValue (storeCells s d j cs) y =
      if a + j ≤ cellAddr y ∧ cellAddr y < a + j + cs.length then laneByte d (cellAddr y - a) else cellValue s y := by
  induction cs generalizing s j with
  | nil => simp [storeCells]
  | cons x cs ih =>
    rw [List.forall_mem_cons] at hcs
    obtain ⟨⟨hx, hw⟩, hcs⟩ := hcs
    rw [List.map_cons, List.length_cons, List.range'_succ, List.cons.injEq] at haddr
    obtain ⟨hxa, haddr⟩ := haddr
    rw [storeCells, ih _ haddr hcs, List.length_cons]
    by_cases hxy : cellAddr y = cellAddr x
    · obtain rfl := eq_of_cellAddr_eq hy hx hxy
      rw [if_neg (by omega), if_pos (by omega), cellValue_storeByteCell_same s _ hy hw, hxa, Nat.add_sub_cancel_left]
    · rw [cellValue_storeByteCell_ne s _ hy hxy]
      exact if_congr (by omega) rfl rfl

theorem cellByte_storeCells_of_notMem (s : State) (d : Word) (j : ℕ) {cs : List ByteCell} {a : ℕ}
    (h : a ∉ cs.map cellAddr) : cellByte (storeCells s d j cs) a = cellByte s a := by
  induction cs generalizing s j with
  | nil => rfl
  | cons x cs ih =>
    simp only [List.map_cons, List.mem_cons, not_or] at h
    obtain ⟨hx, hcs⟩ := h
    rw [storeCells, ih _ _ hcs, cellByte_storeByteCell_ne s _ hx]

/-! ### What else a write to cells changes -/

theorem storeCells_reg (s : State) (d : Word) (r : BlockReg) (j : ℕ) {cs : List ByteCell}
    (h : ∀ x ∈ cs, ∃ k, x = .reg r k) : ∃ v, storeCells s d j cs = writeBlockReg s v r := by
  induction cs generalizing s j with
  | nil => exact ⟨readBlockReg s r, by cases r <;> rfl⟩
  | cons x cs ih =>
    rw [List.forall_mem_cons] at h
    obtain ⟨⟨k, rfl⟩, hcs⟩ := h
    obtain ⟨v, hv⟩ := ih (storeByteCell s (laneByte d j) (.reg r k)) (j + 1) hcs
    refine ⟨v, ?_⟩
    rw [storeCells, hv, storeByteCell]
    split
    · exact writeBlockReg_writeBlockReg_same s _ v r
    · rfl

theorem storeCells_buf (s : State) (d : Word) (b : Space) (j : ℕ) {cs : List ByteCell}
    (h : ∀ x ∈ cs, ∃ off, x = .buf b off) : ∃ m, storeCells s d j cs = { s with mem := m } := by
  induction cs generalizing s j with
  | nil => exact ⟨s.mem, rfl⟩
  | cons x cs ih =>
    rw [List.forall_mem_cons] at h
    obtain ⟨⟨off, rfl⟩, hcs⟩ := h
    obtain ⟨m, hm⟩ := ih (storeByteCell s (laneByte d j) (.buf b off)) (j + 1) hcs
    exact ⟨m, by rw [storeCells, hm]; cases b <;> rfl⟩

/-! ### Reads of cells -/

theorem byteCellValue_of_readable (s : State) {x : ByteCell} (hx : cellReadable x) :
    byteCellValue s x = cellValue s x := by
  cases x with
  | reg r k =>
    simp only [cellReadable] at hx
    rw [byteCellValue, if_pos hx, cellValue]
  | buf b off =>
    cases b with
    | dst => exact absurd rfl hx
    | aad | src => rfl

/-- A read of a cell depends on the byte it holds and on DSTLEN only. -/
theorem byteCellValue_congr {s t : State} {x : ByteCell} (hd : s.dstlen = t.dstlen)
    (hx : cellValue s x = cellValue t x) : byteCellValue s x = byteCellValue t x := by
  cases x with
  | reg r k =>
    unfold byteCellValue
    exact if_congr Iff.rfl hx rfl
  | buf b off =>
    cases b with
    | dst =>
      unfold byteCellValue
      exact if_congr (by rw [hd]) hx rfl
    | aad | src => exact hx

theorem busRead_of_cellsAt {s : State} (hs : s.safe) {a : Addr} {z : Size} {n : ℕ} {x : ByteCell}
    (hz : sizedAccess a.toNat z n) (h : cellsAt s.cfg a.toNat n x) :
    busRead s a z = .readOk (packLanes ((cellsFrom n x).map (byteCellValue s))) := by
  rw [busRead_of_some (targetAt_of_cellsAt hz h), readTarget_of_safe hs, targetValue]

@[simp] theorem cellReadable_nextCell {j : ℕ} {x : ByteCell} : cellReadable (nextCell j x) ↔ cellReadable x := by
  cases x <;> rfl

@[simp] theorem cellWritable_nextCell {j : ℕ} {x : ByteCell} : cellWritable (nextCell j x) ↔ cellWritable x := by
  cases x <;> rfl

/-- A 1-byte read of a readable cell. -/
theorem busRead_one_of_readable {s : State} (hs : s.safe) {a : Addr} {x : ByteCell} (hx : cellReadable x)
    (h : elementAt s.cfg a.toNat = some (.byte x)) : busRead s a .one = .readOk ((cellValue s x).setWidth 32) := by
  rw [busRead_one hs, byteCellAt_eq_some_iff.2 h]
  dsimp only
  rw [byteCellValue_of_readable s hx]

/-- A 4-byte read of readable cells, lane by lane. -/
theorem busRead_four_of_readable {s : State} (hs : s.safe) {a : Addr} (ha : a.toNat % 4 = 0) {x : ByteCell}
    (hx : cellReadable x) (h : cellsAt s.cfg a.toNat 4 x) :
    ∃ w : Word, busRead s a .four = .readOk w ∧ ∀ k < 4, w.extractLsb' (8 * k) 8 = cellValue s (nextCell k x) := by
  refine ⟨_, busRead_of_cellsAt hs (.inr ⟨rfl, rfl, ha⟩) h, fun k hk => ?_⟩
  have hvalue (j : ℕ) := byteCellValue_of_readable s (cellReadable_nextCell (j := j).2 hx)
  change (packLanes [_, _, _, _]).extractLsb' _ _ = _
  rw [packLanes_lane _ _ _ _ hk]
  interval_cases k <;> exact hvalue _

end Sys2Proof.Machine
end

section
/-! PROOFS. What host reads give, and what they do not depend on (10_state.md sections 3, 6 and 8). -/

namespace Sys2Proof.Machine

theorem toNat_ofNat_addr {n : ℕ} (h : n < 0x40000) : (BitVec.ofNat 18 n).toNat = n := by
  rw [BitVec.toNat_ofNat]
  omega

/-- Byte reads and word reads of a 16-byte register that the port shows. -/
theorem busRead_reg {s : State} (hs : s.safe) {r : BlockReg} (hr : hostReadable r = true) :
    (∀ k < 16, busRead s (BitVec.ofNat 18 (regBase r + k)) .one =
      .readOk ((blockByte (readBlockReg s r) k).setWidth 32)) ∧
    ∀ j < 4, ∃ w : Word, busRead s (BitVec.ofNat 18 (regBase r + 4 * j)) .four = .readOk w ∧
      ∀ k < 4, w.extractLsb' (8 * k) 8 = blockByte (readBlockReg s r) (4 * j + k) := by
  have haddr (k : ℕ) (hk : k < 16) : (BitVec.ofNat 18 (regBase r + k)).toNat = regBase r + k :=
    toNat_ofNat_addr (by cases r <;> simp only [regBase] <;> omega)
  have hcell (k : ℕ) (hk : k < 16) : elementAt s.cfg (regBase r + k) = some (.byte (.reg r k)) :=
    elementAt_reg_iff.2 ⟨rfl, by omega⟩
  refine ⟨fun k hk => ?_, fun j hj => ?_⟩
  · exact busRead_one_of_readable (x := .reg r k) hs hr (by rw [haddr k hk]; exact hcell k hk)
  · have ha := haddr (4 * j) (by omega)
    have halign : (regBase r + 4 * j) % 4 = 0 := by cases r <;> simp only [regBase] <;> omega
    refine busRead_four_of_readable (x := .reg r (4 * j)) hs (by rw [ha]; exact halign) hr ?_
    rw [ha]
    exact cellsAt_reg (.inr ⟨rfl, rfl, halign⟩) (hcell (4 * j) (by omega))

/-- Byte reads and word reads of AADBUF and SRCBUF. -/
theorem busRead_buf {s : State} (hs : s.safe) (hc : s.cfg.wellFormed = true) {b : Space} (hb : b ≠ .dst) {off : ℕ}
    (hoff : off < s.cfg.bufMax) :
    busRead s (BitVec.ofNat 18 (spaceBase b + off)) .one = .readOk ((bufferByte s b off).setWidth 32) ∧
    (off % 4 = 0 → ∃ w : Word, busRead s (BitVec.ofNat 18 (spaceBase b + off)) .four = .readOk w ∧
      ∀ k < 4, w.extractLsb' (8 * k) 8 = bufferByte s b (off + k)) := by
  have hbuf := bufMax_range hc
  have ha : (BitVec.ofNat 18 (spaceBase b + off)).toNat = spaceBase b + off :=
    toNat_ofNat_addr (by cases b <;> simp only [spaceBase] <;> omega)
  have hcell : elementAt s.cfg (spaceBase b + off) = some (.byte (.buf b off)) :=
    (elementAt_buf_iff hbuf.2).2 ⟨rfl, hoff⟩
  refine ⟨busRead_one_of_readable (x := .buf b off) hs hb (by rw [ha, hcell]), fun h4 => ?_⟩
  have halign : (spaceBase b + off) % 4 = 0 := by cases b <;> simp only [spaceBase] <;> omega
  refine busRead_four_of_readable (x := .buf b off) hs (by rw [ha]; exact halign) hb ?_
  rw [ha]
  exact cellsAt_of_wellFormed hc (.inr ⟨rfl, rfl, halign⟩) hcell

/-- A 4-byte read of a word register. -/
theorem busRead_word {s : State} (hs : s.safe) {a : Addr} {r : WordReg}
    (h : targetAt s.cfg a.toNat .four = some (.word r)) : busRead s a .four = .readOk (wordRegValue s r) := by
  rw [busRead_of_some h, readTarget_of_safe hs, targetValue]

/-- Settles O58: word registers, 16-byte registers and the two input buffers, each at its own addresses. -/
theorem portReadsGiveStoredValues : Obligations.PortReadsGiveStoredValues := by
  intro s hs
  refine ⟨busRead_word (r := .aadlen) hs rfl, busRead_word (r := .srclen) hs rfl, busRead_word (r := .dstlen) hs rfl,
    busRead_word (r := .gfp) hs rfl, fun v base hmem => ?_, fun hc b base hmem off hoff => ?_⟩
  · simp only [List.mem_cons, List.not_mem_nil, or_false, Prod.mk.injEq] at hmem
    rcases hmem with ⟨rfl, rfl⟩ | ⟨rfl, rfl⟩ | ⟨rfl, rfl⟩ | ⟨rfl, rfl⟩ | ⟨rfl, rfl⟩ | ⟨rfl, rfl⟩
    · exact busRead_reg (r := .blkin) hs rfl
    · exact busRead_reg (r := .blkout) hs rfl
    · exact busRead_reg (r := .ghop) hs rfl
    · exact busRead_reg (r := .ctr) hs rfl
    · exact busRead_reg (r := .tagin) hs rfl
    · exact busRead_reg (r := .tagout) hs rfl
  · simp only [List.mem_cons, List.not_mem_nil, or_false, Prod.mk.injEq] at hmem
    rcases hmem with ⟨rfl, rfl⟩ | ⟨rfl, rfl⟩
    · exact busRead_buf hs hc (b := .aad) (by decide) hoff
    · exact busRead_buf hs hc (b := .src) (by decide) hoff

/-! ### Hidden state (10_state.md R45) -/

theorem State.SameVisible.wordRegValue_eq {s t : State} (h : s.SameVisible t) (r : WordReg) :
    wordRegValue s r = wordRegValue t r := by
  cases r with
  | cmd => rfl
  | status => exact h.status
  | aadlen => exact h.aadlen
  | srclen => exact h.srclen
  | dstlen => exact h.dstlen
  | gfp => exact congrArg (BitVec.setWidth 32) h.gfp

theorem State.SameVisible.readBlockReg_eq {s t : State} (h : s.SameVisible t) {r : BlockReg}
    (hr : hostReadable r = true) : readBlockReg s r = readBlockReg t r := by
  cases r with
  | keyin => cases hr
  | blkin => exact h.blkin
  | blkout => exact h.blkout
  | ghop => exact h.ghop
  | ctr => exact h.ctr
  | tagin => exact h.tagin
  | tagout => exact h.tagout

theorem State.SameVisible.byteCellValue_eq {s t : State} (h : s.SameVisible t) {x : ByteCell} (hx : realCell x) :
    byteCellValue s x = byteCellValue t x := by
  match x with
  | .reg r k =>
    simp only [byteCellValue]
    split
    case isTrue hr => rw [h.readBlockReg_eq hr]
    case isFalse => rfl
  | .buf .aad off => exact h.aadbuf off hx
  | .buf .src off => exact h.srcbuf off hx
  | .buf .dst off =>
    simp only [byteCellValue]
    rw [← h.dstlen]
    split
    case isTrue hoff => exact h.dstbuf off hoff
    case isFalse => rfl

theorem State.SameVisible.targetValue_eq {s t : State} (h : s.SameVisible t) {c : Config} {a : ℕ} {z : Size}
    {g : Target} (hg : targetAt c a z = some g) : targetValue s g = targetValue t g := by
  cases g with
  | word r => exact h.wordRegValue_eq r
  | cells cs =>
    refine congrArg packLanes (List.map_congr_left fun x hx => ?_)
    obtain ⟨_, -, -, he⟩ := elementAt_of_mem_targetAt hg hx
    exact h.byteCellValue_eq (realCell_of_elementAt he)

/-- Settles O16: the target of a read depends on BUF_MAX, and its value on what the two states have in common. -/
theorem hiddenStateIsNotReadable : Obligations.HiddenStateIsNotReadable := by
  intro s t a z h
  cases hg : targetAt s.cfg a.toNat z with
  | none => rw [busRead_of_none hg, busRead_of_none (h.cfg ▸ hg)]
  | some g =>
    rw [busRead_of_some hg, busRead_of_some (h.cfg ▸ hg), readTarget, readTarget, h.fatal, h.status,
      h.targetValue_eq hg]

end Sys2Proof.Machine
end

section
/-! PROOFS. Host writes: to a length register, to KEYIN, and to the registers and buffers that read back (20_memory.md
R61 to R63, 10_state.md R23, R25 to R33). -/

namespace Sys2Proof.Machine

/-! ### AADLEN and SRCLEN -/

/-- A host write to a word register other than CMD while FATAL is clear. -/
theorem step_write_word {s : State} {rest : List Input} {a : Addr} {d : Word} {r : WordReg} (hs : s.safe)
    (h : s.inputs = .bus (.write a .four d) :: rest) (hg : targetAt s.cfg a.toNat .four = some (.word r))
    (hr : r ≠ .cmd) : step s = .next (storeWordReg (answered s rest (some .writeOk)) d r) := by
  rw [step_write_data h hg (by simpa using hr), writeTarget_of_safe (by exact hs)]
  rfl

/-- Settles O13: the two registers store the word and are read as they stand. -/
theorem lengthRegistersHoldAnyWord : Obligations.LengthRegistersHoldAnyWord := fun s rest d hs =>
  ⟨fun h => ⟨_, step_write_word (r := .aadlen) hs h rfl (by decide), rfl,
      busRead_word (r := .aadlen) (by exact hs) rfl⟩,
    fun h => ⟨_, step_write_word (r := .srclen) hs h rfl (by decide), rfl,
      busRead_word (r := .srclen) (by exact hs) rfl⟩⟩

/-! ### Byte cells -/

/-- What a write of `n` bytes to writable cells from `x` on leaves. -/
def hostWritten (s : State) (rest : List Input) (d : Word) (n : ℕ) (x : ByteCell) : State :=
  answered (storeCells s d 0 (cellsFrom n x)) rest (some .writeOk)

section
variable {s : State} (hs : s.safe) (rest : List Input) (d : Word) (n : ℕ) (x : ByteCell)
include hs

theorem hostWritten_eq_writeTarget :
    hostWritten s rest d n x = writeTarget (answered s rest (some .writeOk)) d (.cells (cellsFrom n x)) := by
  rw [writeTarget_of_safe (by exact hs), storeTarget, storeCells_answered]
  rfl

theorem hostWritten_safe : (hostWritten s rest d n x).safe := by
  rw [State.safe, hostWritten_eq_writeTarget hs, writeTarget_fatal]
  exact hs

theorem hostWritten_cfg : (hostWritten s rest d n x).cfg = s.cfg := by
  rw [hostWritten_eq_writeTarget hs, writeTarget_cfg]
  rfl

theorem hostWritten_dstlen : (hostWritten s rest d n x).dstlen = s.dstlen := by
  rw [hostWritten_eq_writeTarget hs, writeTarget_dstlen]
  rfl

end

theorem hostWritten_reg (s : State) (rest : List Input) (d : Word) (n k : ℕ) (r : BlockReg) :
    ∃ v, hostWritten s rest d n (.reg r k) = answered (writeBlockReg s v r) rest (some .writeOk) := by
  have hcells : ∀ x ∈ cellsFrom n (.reg r k), ∃ k', x = .reg r k' := List.forall_mem_map.2 fun j _ => ⟨k + j, rfl⟩
  obtain ⟨v, hv⟩ := storeCells_reg s d r 0 hcells
  exact ⟨v, by rw [hostWritten, hv]⟩

theorem hostWritten_buf (s : State) (rest : List Input) (d : Word) (n off : ℕ) (b : Space) :
    ∃ m, hostWritten s rest d n (.buf b off) = answered { s with mem := m } rest (some .writeOk) := by
  have hcells : ∀ x ∈ cellsFrom n (.buf b off), ∃ off', x = .buf b off' :=
    List.forall_mem_map.2 fun j _ => ⟨off + j, rfl⟩
  obtain ⟨m, hm⟩ := storeCells_buf s d b 0 hcells
  exact ⟨m, by rw [hostWritten, hm]⟩

section
variable {s : State} {rest : List Input} {d : Word} {a n : ℕ} {x : ByteCell} (hx : cellsAt s.cfg a n x)
include hx

theorem cellAddr_of_cellsAt {z : Size} (hz : sizedAccess a z n) : cellAddr x = a := by
  have hpos : 0 < n := by obtain ⟨-, rfl⟩ | ⟨-, rfl, -⟩ := hz <;> decide
  have h0 := hx 0 hpos
  rw [nextCell_zero] at h0
  exact cellAddr_of_elementAt h0

theorem realCell_of_mem_cellsFrom : ∀ y ∈ cellsFrom n x, realCell y :=
  List.forall_mem_map.2 fun j hj => realCell_of_elementAt (hx j (List.mem_range.1 hj))

/-- A cell at an address written holds the lane of that address, every other cell what it held. -/
theorem cellValue_hostWritten {z : Size} (hz : sizedAccess a z n) (hw : cellWritable x) {y : ByteCell}
    (hy : realCell y) : cellValue (hostWritten s rest d n x) y =
      if a ≤ cellAddr y ∧ cellAddr y < a + n then laneByte d (cellAddr y - a) else cellValue s y := by
  have haddr : (cellsFrom n x).map cellAddr = List.range' (a + 0) (cellsFrom n x).length := by
    rw [map_cellAddr_cellsFrom, cellAddr_of_cellsAt hx hz, cellsFrom, List.length_map, List.length_range, Nat.add_zero]
  have hlen : (cellsFrom n x).length = n := by simp [cellsFrom]
  have hwritable : ∀ y ∈ cellsFrom n x, cellWritable y := List.forall_mem_map.2 fun j _ => cellWritable_nextCell.2 hw
  have hvalue := cellValue_storeCells s d haddr (fun y hy => ⟨realCell_of_mem_cellsFrom hx y hy, hwritable y hy⟩) hy
  rw [hlen, Nat.add_zero] at hvalue
  rw [← hvalue]
  cases y <;> rfl

theorem cellByte_hostWritten {z : Size} (hz : sizedAccess a z n) {a' : ℕ} (h : a' < a ∨ a + n ≤ a') :
    cellByte (hostWritten s rest d n x) a' = cellByte s a' := by
  refine cellByte_storeCells_of_notMem s d 0 ?_
  rw [map_cellAddr_cellsFrom, cellAddr_of_cellsAt hx hz, List.mem_range'_1]
  omega

end

/-- The step that a write to byte cells makes. -/
theorem step_write_cells {s : State} {rest : List Input} {a : Addr} {z : Size} {n : ℕ} {d : Word} {x : ByteCell}
    (hs : s.safe) (hz : sizedAccess a.toNat z n) (hx : cellsAt s.cfg a.toNat n x)
    (h : s.inputs = .bus (.write a z d) :: rest) : step s = .next (hostWritten s rest d n x) := by
  rw [step_write_data h (targetAt_of_cellsAt hz hx) (by simp), hostWritten_eq_writeTarget hs]

/-- Settles O12: KEYIN is one of the registers that a write of cells stores to. -/
theorem keyinWriteStagesKeyBytes : Obligations.KeyinWriteStagesKeyBytes := by
  intro s rest a z n d hs hz h1 h2 h
  have hx := cellsAt_reg hz (elementAt_keyin (c := s.cfg) h1 h2)
  refine ⟨_, step_write_cells hs hz hx h, ?_, fun k hk => ?_⟩
  · obtain ⟨v, hv⟩ := hostWritten_reg s rest d n (a.toNat - 0x20) .keyin
    rw [hv]
    rfl
  · have hy : realCell (.reg .keyin k) := by
      simp only [realCell]
      omega
    exact cellValue_hostWritten hx hz rfl hy

/-! ### Writes that read back -/

/-- The cells of BLKIN, GHOP, CTR, TAGIN, AADBUF and SRCBUF take host writes and show what they hold. -/
theorem exists_readWrite_cell {c : Config} (hc : c.wellFormed = true) {a : ℕ}
    (h : (0x30 ≤ a ∧ a < 0x40) ∨ (0x50 ≤ a ∧ a < 0x80) ∨ (0x10000 ≤ a ∧ a < 0x10000 + c.bufMax) ∨
      (0x20000 ≤ a ∧ a < 0x20000 + c.bufMax)) :
    ∃ x, elementAt c a = some (.byte x) ∧ cellWritable x ∧ cellReadable x := by
  have hreg (r : BlockReg) (h1 : regBase r ≤ a) (h2 : a < regBase r + 16) :
      elementAt c a = some (.byte (.reg r (a - regBase r))) := elementAt_reg_iff.2 ⟨by omega, by omega⟩
  have hbuf (b : Space) (h1 : spaceBase b ≤ a) (h2 : a < spaceBase b + c.bufMax) :
      elementAt c a = some (.byte (.buf b (a - spaceBase b))) :=
    (elementAt_buf_iff (bufMax_range hc).2).2 ⟨by omega, by omega⟩
  obtain ⟨h1, h2⟩ | ⟨h1, h2⟩ | ⟨h1, h2⟩ | ⟨h1, h2⟩ := h
  · exact ⟨_, hreg .blkin h1 h2, rfl, rfl⟩
  · by_cases h60 : a < 0x60
    · exact ⟨_, hreg .ghop h1 h60, rfl, rfl⟩
    by_cases h70 : a < 0x70
    · exact ⟨_, hreg .ctr (Nat.le_of_not_lt h60) h70, rfl, rfl⟩
    · exact ⟨_, hreg .tagin (Nat.le_of_not_lt h70) h2, rfl, rfl⟩
  · exact ⟨_, hbuf .aad h1 h2, by simp [cellWritable], by simp [cellReadable]⟩
  · exact ⟨_, hbuf .src h1 h2, by simp [cellWritable], by simp [cellReadable]⟩

/-- Only the register at the address, or memory, changes. -/
theorem hostWritten_frame {c : Config} (hc : c.wellFormed = true) {a : ℕ} {x : ByteCell}
    (he : elementAt c a = some (.byte x)) (hw : cellWritable x) (hr : cellReadable x) (s : State) (rest : List Input)
    (d : Word) (n : ℕ) :
    hostWritten s rest d n x = { s with
      inputs := rest
      answer := some .writeOk
      blkin := if 0x30 ≤ a ∧ a < 0x40 then (hostWritten s rest d n x).blkin else s.blkin
      ghop := if 0x50 ≤ a ∧ a < 0x60 then (hostWritten s rest d n x).ghop else s.ghop
      ctr := if 0x60 ≤ a ∧ a < 0x70 then (hostWritten s rest d n x).ctr else s.ctr
      tagin := if 0x70 ≤ a ∧ a < 0x80 then (hostWritten s rest d n x).tagin else s.tagin
      mem := if 0x10000 ≤ a then (hostWritten s rest d n x).mem else s.mem } := by
  cases x with
  | reg r k =>
    obtain ⟨ha, hk⟩ := elementAt_reg_iff.1 he
    obtain ⟨v, hv⟩ := hostWritten_reg s rest d n k r
    rw [hv]
    cases r with
    | keyin => cases hr
    | blkout | tagout => cases hw
    | blkin | ghop | ctr | tagin =>
      simp only [regBase] at ha
      simp only [answered, writeBlockReg, ite_self]
      rw [if_pos (by omega)]
  | buf b off =>
    obtain ⟨ha, hoff⟩ := (elementAt_buf_iff (bufMax_range hc).2).1 he
    obtain ⟨m, hm⟩ := hostWritten_buf s rest d n off b
    have hge : 0x10000 ≤ a := by cases b <;> simp only [spaceBase] at ha <;> omega
    rw [hm, if_pos hge]
    simp only [answered, ite_self]

/-- The four lanes of a word, packed, are the word. -/
theorem packLanes_laneByte (d : Word) : packLanes ((List.range 4).map (laneByte d)) = d := by
  refine BitVec.eq_of_getLsbD_eq fun i hi => ?_
  change (packLanes [laneByte d 0, laneByte d 1, laneByte d 2, laneByte d 3]).getLsbD i = _
  have hlane := congrArg (BitVec.getLsbD · (i % 8))
    (packLanes_lane (laneByte d 0) (laneByte d 1) (laneByte d 2) (laneByte d 3) (k := i / 8) (by omega))
  have hpos : 8 * (i / 8) + i % 8 = i := by omega
  have hbyte : [laneByte d 0, laneByte d 1, laneByte d 2, laneByte d 3].getD (i / 8) 0#8 = laneByte d (i / 8) := by
    have : i / 8 < 4 := by omega
    interval_cases i / 8 <;> rfl
  rw [hbyte] at hlane
  simpa [laneByte, BitVec.getLsbD_extractLsb', hpos, Nat.mod_lt] using hlane

section
variable {s : State} {rest : List Input} {d : Word} {a : Addr} {z : Size} {n : ℕ} {x : ByteCell}
  (hs : s.safe) (hz : sizedAccess a.toNat z n) (hx : cellsAt s.cfg a.toNat n x)

include hz hx

/-- Cell `j` of the access holds lane `j`. -/
theorem cellValue_hostWritten_nextCell (hw : cellWritable x) {j : ℕ} (hj : j < n) :
    cellValue (hostWritten s rest d n x) (nextCell j x) = laneByte d j := by
  have haddr := cellAddr_of_cellsAt hx hz
  rw [cellValue_hostWritten hx hz hw (realCell_of_elementAt (hx j hj)), cellAddr_nextCell, haddr, if_pos (by omega),
    Nat.add_sub_cancel_left]

include hs

/-- The bytes written read back one by one. -/
theorem busRead_hostWritten_one (hw : cellWritable x) (hr : cellReadable x) {j : ℕ} (hj : j < n) {a' : Addr}
    (ha' : a'.toNat = a.toNat + j) :
    busRead (hostWritten s rest d n x) a' .one = .readOk ((laneByte d j).setWidth 32) := by
  have he : elementAt (hostWritten s rest d n x).cfg a'.toNat = some (.byte (nextCell j x)) := by
    rw [hostWritten_cfg hs, ha']
    exact hx j hj
  rw [busRead_one_of_readable (hostWritten_safe hs _ _ _ _) (cellReadable_nextCell.2 hr) he,
    cellValue_hostWritten_nextCell hz hx hw hj]

/-- What was written reads back by the same access. -/
theorem busRead_hostWritten (hw : cellWritable x) (hr : cellReadable x) :
    busRead (hostWritten s rest d n x) a z = .readOk (if z = .one then (d.extractLsb' 0 8).setWidth 32 else d) := by
  have hsize := hz
  obtain ⟨rfl, rfl⟩ | ⟨rfl, rfl, -⟩ := hsize
  · exact busRead_hostWritten_one hs hz hx hw hr (j := 0) (by decide) rfl
  · have hlanes : (cellsFrom 4 x).map (byteCellValue (hostWritten s rest d 4 x)) = (List.range 4).map (laneByte d) := by
      rw [cellsFrom, List.map_map]
      refine List.map_congr_left fun j hj => ?_
      rw [Function.comp_apply, byteCellValue_of_readable _ (cellReadable_nextCell.2 hr),
        cellValue_hostWritten_nextCell hz hx hw (List.mem_range.1 hj)]
    have hx' : cellsAt (hostWritten s rest d 4 x).cfg a.toNat 4 x := by rwa [hostWritten_cfg hs]
    rw [busRead_of_cellsAt (hostWritten_safe hs _ _ _ _) hz hx', hlanes, packLanes_laneByte]
    rfl

/-- 1-byte reads at other addresses give what they gave. -/
theorem busRead_hostWritten_outside (hw : cellWritable x) {a' : Addr}
    (ha' : a'.toNat < a.toNat ∨ a.toNat + n ≤ a'.toNat) :
    busRead (hostWritten s rest d n x) a' .one = busRead s a' .one := by
  rw [busRead_one (hostWritten_safe hs _ _ _ _), busRead_one hs, hostWritten_cfg hs]
  cases hy : byteCellAt s.cfg a'.toNat with
  | none => rfl
  | some y =>
    have he := byteCellAt_eq_some_iff.1 hy
    have haddr := cellAddr_of_elementAt he
    have hvalue : cellValue (hostWritten s rest d n x) y = cellValue s y := by
      rw [cellValue_hostWritten hx hz hw (realCell_of_elementAt he), if_neg (by omega)]
    dsimp only
    rw [byteCellValue_congr (hostWritten_dstlen hs _ _ _ _) hvalue]

end

/-- Settles O11: the cells at the addresses written hold the lanes, everything else what it held. -/
theorem hostWritesReadBackLittleEndian : Obligations.HostWritesReadBackLittleEndian := by
  intro s rest a z n d hs hc hz hloc h
  obtain ⟨x, he, hw, hr⟩ := exists_readWrite_cell hc hloc
  have hx : cellsAt s.cfg a.toNat n x := cellsAt_of_wellFormed hc hz he
  have hbuf := (bufMax_range hc).2
  have hvalue (y : ByteCell) (hy : realCell y) := cellValue_hostWritten (rest := rest) (d := d) hx hz hw hy
  refine ⟨_, step_write_cells hs hz hx h, hostWritten_frame hc he hw hr s rest d n, ?_, ?_,
    fun _ ha' => cellByte_hostWritten hx hz ha', busRead_hostWritten hs hz hx hw hr, fun k hk => ?_,
    fun _ ha' => busRead_hostWritten_outside hs hz hx hw ha'⟩
  · intro old new base hmem k hk
    have hreg (r : BlockReg) := hvalue (.reg r k) (Nat.le_of_lt_succ hk)
    simp only [List.mem_cons, List.not_mem_nil, or_false, Prod.mk.injEq] at hmem
    rcases hmem with ⟨rfl, rfl, rfl⟩ | ⟨rfl, rfl, rfl⟩ | ⟨rfl, rfl, rfl⟩ | ⟨rfl, rfl, rfl⟩
    · exact hreg .blkin
    · exact hreg .ghop
    · exact hreg .ctr
    · exact hreg .tagin
  · intro b base hmem off hoff
    simp only [List.mem_cons, List.not_mem_nil, or_false, Prod.mk.injEq] at hmem
    rcases hmem with ⟨rfl, rfl⟩ | ⟨rfl, rfl⟩
    · exact hvalue (.buf .aad off) hoff
    · exact hvalue (.buf .src off) hoff
  · have hk4 : k < 4 := by obtain ⟨-, rfl⟩ | ⟨-, rfl, -⟩ := hz <;> omega
    refine busRead_hostWritten_one hs hz hx hw hr hk ?_
    rw [BitVec.toNat_add, BitVec.toNat_ofNat]
    omega

end Sys2Proof.Machine
end

section
/-! PROOFS. What AEDEC releases and what its tag covers (43_aead.md sections 4 and 5). -/

namespace Sys2Proof.Machine

/-! ### Nothing is released on failure (R192) -/

/-- The cells of DSTBUF and TAGOUT, where AEDEC and AEENC leave their results. -/
def resultCell : ByteCell → Prop
  | .reg r _ => r = .tagout
  | .buf b _ => b = .dst

theorem resultCell_of_elementAt {c : Config} {a : ℕ} {x : ByteCell}
    (ha : 0x30000 ≤ a ∨ (0x80 ≤ a ∧ a < 0x90)) (he : elementAt c a = some (.byte x)) : resultCell x := by
  obtain ha | ⟨h1, h2⟩ := ha
  · cases eq_dst_of_elementAt ha he
    rfl
  · have htagout : elementAt c a = some (.byte (.reg .tagout (a - 0x80))) :=
      elementAt_reg_iff.2 ⟨(Nat.add_sub_of_le h1).symm, by omega⟩
    rw [he] at htagout
    cases htagout
    rfl

/-- With DSTLEN and TAGOUT zero every read of DSTBUF and of TAGOUT gives 0. -/
theorem byteCellValue_resultCell {s : State} (hd : s.dstlen = 0#32) (ht : s.tagout = 0#128) {x : ByteCell}
    (hx : resultCell x) : byteCellValue s x = 0#8 := by
  cases x with
  | reg r k =>
    obtain rfl : r = .tagout := hx
    simp [byteCellValue, hostReadable, readBlockReg, ht]
  | buf b off =>
    obtain rfl : b = .dst := hx
    simp [byteCellValue, hd]

theorem busRead_result {s : State} (hd : s.dstlen = 0#32) (ht : s.tagout = 0#128) {a : Addr} (z : Size)
    (ha : 0x30000 ≤ a.toNat ∨ (0x80 ≤ a.toNat ∧ a.toNat < 0x90)) :
    busRead s a z = .error ∨ busRead s a z = .readOk 0#32 := by
  cases hg : targetAt s.cfg a.toNat z with
  | none => exact .inl (busRead_of_none hg)
  | some g =>
    cases g with
    | word r =>
      obtain ⟨he, -, -⟩ := targetAt_word hg
      have hlt := elementAt_word_iff.1 ⟨r, he⟩
      omega
    | cells cs =>
      right
      rw [busRead_of_some hg, readTarget_eq_zero (g := .cells cs) (by simp)]
      refine packLanes_eq_zero (List.forall_mem_map.2 fun x hx => byteCellValue_resultCell hd ht ?_)
      obtain ⟨j, hj, hja, he⟩ := elementAt_of_mem_targetAt hg hx
      exact resultCell_of_elementAt (by omega) he

/-- Settles O53: of AEDEC's effects only AUTH_FAIL leaves that code, and all but CONTRACT write zero to TAGOUT. -/
theorem noReleaseOnAuthFailure : Obligations.NoReleaseOnAuthFailure := by
  intro s t hs h
  obtain ⟨hf, -⟩ | ⟨-, he⟩ := exec_effect h
  · exact absurd hf (by simp [hs])
  cases he with
  | contract => exact ⟨nofun, fun hne => absurd rfl hne⟩
  | malformed => exact ⟨nofun, fun _ => rfl⟩
  | authFail hk => exact ⟨fun _ => ⟨by simp, rfl, fun a z => busRead_result rfl rfl z⟩, fun _ => rfl⟩
  | aedec => exact ⟨nofun, fun _ => rfl⟩

/-! ### Acceptance -/

/-- What AEDEC computes of the inputs, to compare with TAGIN: the hash of the AAD and of the envelope after its IV. -/
def aedecTag (s : State) : Block :=
  ghash (encryptBlock .complete 0#128 (expandKey s.key)) (memRead s .aad 0 s.aadlen.toNat)
    ((memRead s .src 0 s.srclen.toNat).drop 12)

/-- The checks of AEDEC before it opens the envelope. -/
structure AedecChecks (s : State) : Prop where
  key : s.keyValid = true
  aad : s.aadlen.toNat ≤ s.cfg.bufMax
  src : s.srclen.toNat ≤ s.cfg.bufMax
  iv : 12 ≤ s.srclen.toNat

section
variable {s : State} (hi : s.Inv) (hs : s.safe)
include hi hs

theorem aedec_ok_of_tag_eq (hc : AedecChecks s) (htag : aedecTag s = s.tagin) :
    ∃ t, exec .aedec s = .next t ∧ t.result = .ok ∧ t.dstlen = s.srclen - 12#32 ∧
      memRead t .dst 0 (s.srclen.toNat - 12) =
        ctrXor .complete (expandKey s.key) (ivOfBytes ((memRead s .src 0 s.srclen.toNat).take 12))
          ((memRead s .src 0 s.srclen.toNat).drop 12) := by
  obtain ⟨-, -, hopen⟩ := aedecOpensSrcbuf.2 s hi hs
  obtain ⟨rk, h, env, aad, rfl, rfl, rfl, rfl, -, hok⟩ := hopen hc.key hc.aad hc.iv hc.src
  obtain ⟨t, ht, hframe, hlen, hread, -⟩ := hok htag
  have hresult : t.result = .ok := by rw [hframe]
  refine ⟨t, ht, hresult, BitVec.eq_of_toNat_eq ?_, hread⟩
  rw [hlen]
  symm
  exact BitVec.toNat_sub_of_le hc.iv

theorem aedec_authFail_of_tag_ne (hc : AedecChecks s) (htag : aedecTag s ≠ s.tagin) :
    ∃ t, exec .aedec s = .next t ∧ t.result = .authFail ∧ t.dstlen = 0#32 ∧ t.mem = s.mem := by
  obtain ⟨-, -, hopen⟩ := aedecOpensSrcbuf.2 s hi hs
  obtain ⟨rk, h, env, aad, rfl, rfl, rfl, rfl, hfail, -⟩ := hopen hc.key hc.aad hc.iv hc.src
  exact ⟨_, hfail htag, rfl, rfl, rfl⟩

/-- AEDEC ends in OK only after its checks. -/
theorem aedecChecks_of_ok {t : State} (h : exec .aedec s = .next t) (hok : t.result = .ok) : AedecChecks s := by
  obtain ⟨hcontract, hshort, -⟩ := aedecOpensSrcbuf.2 s hi hs
  by_cases hover : s.keyValid = false ∨ s.cfg.bufMax < s.aadlen.toNat ∨ s.cfg.bufMax < s.srclen.toNat
  · rw [hcontract hover] at h
    cases h
    cases hok
  simp only [not_or, Bool.not_eq_false, Nat.not_lt] at hover
  obtain ⟨hk, ha, hp⟩ := hover
  by_cases h12 : s.srclen.toNat < 12
  · rw [hshort hk ha h12] at h
    cases h
    cases hok
  · exact ⟨hk, ha, hp, Nat.not_lt.1 h12⟩

theorem aedecTag_of_ok {t : State} (h : exec .aedec s = .next t) (hok : t.result = .ok) : aedecTag s = s.tagin := by
  by_contra htag
  obtain ⟨u, hu, hfail, -⟩ := aedec_authFail_of_tag_ne hi hs (aedecChecks_of_ok hi hs h hok) htag
  rw [hu] at h
  cases h
  rw [hfail] at hok
  cases hok

end

/-! ### What the tag covers (R194) -/

/-- Settles O54: the tag computed does not depend on TAGIN, so it differs from every tag but the one accepted. -/
theorem everyOtherTagIsRejected : Obligations.EveryOtherTagIsRejected := by
  intro s t g hi hs h hok hg
  obtain ⟨hk, ha, hp, h12⟩ := aedecChecks_of_ok hi hs h hok
  have htag : aedecTag { s with tagin := g } ≠ g := (aedecTag_of_ok hi hs h hok).trans_ne hg.symm
  exact aedec_authFail_of_tag_ne (s := { s with tagin := g }) (hi.congr rfl) hs ⟨hk, ha, hp, h12⟩ htag

theorem drop_memRead (s : State) (b : Space) (n m : ℕ) : (memRead s b 0 n).drop m = memRead s b m (n - m) := by
  refine List.ext_getElem (by simp) fun k _ _ => ?_
  rw [List.getElem_drop, memRead_getElem, memRead_getElem, Nat.zero_add]

/-- Settles O55: the tag computed depends on the AAD and on the envelope from byte 12 on. -/
theorem tagDoesNotCoverTheIv : Obligations.TagDoesNotCoverTheIv := by
  intro s t s' hi hi' hs h hok hs' haad hsrc
  obtain ⟨m, rfl⟩ : ∃ m, s' = { s with mem := m } := ⟨_, hs'⟩
  have hbuf := bufMax_range hi.config
  obtain ⟨hk, ha, hp, h12⟩ := aedecChecks_of_ok hi hs h hok
  have htag : aedecTag { s with mem := m } = s.tagin := by
    rw [← aedecTag_of_ok hi hs h hok, aedecTag, aedecTag, drop_memRead, drop_memRead]
    congr 1
    · exact memRead_congr fun k hlt => haad _ (by dsimp only at hlt; omega)
    · exact memRead_congr fun k hlt => hsrc _ (by omega) (by dsimp only at hlt; omega)
  obtain ⟨u, hu, huok, hulen, -⟩ := aedec_ok_of_tag_eq hi' hs ⟨hk, ha, hp, h12⟩ htag
  obtain ⟨v, hv, -, hvlen, -⟩ := aedec_ok_of_tag_eq hi hs ⟨hk, ha, hp, h12⟩ (aedecTag_of_ok hi hs h hok)
  rw [hv] at h
  cases h
  exact ⟨u, hu, huok, hulen.trans hvlen.symm⟩

/-! ### AEENC, then AEDEC (R193) -/

/-- AEENC ends in OK only with a key and lengths that fit. -/
theorem aeencChecks_of_ok {s t : State} (hi : s.Inv) (hs : s.safe) (h : exec .aeenc s = .next t)
    (hok : t.result = .ok) :
    s.keyValid = true ∧ s.aadlen.toNat ≤ s.cfg.bufMax ∧ s.srclen.toNat ≤ s.cfg.bufMax - 12 := by
  by_cases hover : s.keyValid = false ∨ s.cfg.bufMax < s.aadlen.toNat ∨ s.cfg.bufMax - 12 < s.srclen.toNat
  · rw [(aeencSealsSrcbuf.2 s hi hs).1 hover] at h
    cases h
    cases hok
  · simpa only [not_or, Bool.not_eq_false, Nat.not_lt] using hover

/-- What AEENC leaves when it ends in OK: the envelope in DSTBUF, its length and its tag. -/
theorem aeenc_ok {s t : State} (hi : s.Inv) (hs : s.safe) (h : exec .aeenc s = .next t) (hok : t.result = .ok) :
    ∃ iv c, c = ctrXor .complete (expandKey s.key) iv (memRead s .src 0 s.srclen.toNat) ∧
      t.dstlen.toNat = s.srclen.toNat + 12 ∧ memRead t .dst 0 t.dstlen.toNat = ivBytes iv ++ c ∧
      t.tagout = ghash (encryptBlock .complete 0#128 (expandKey s.key)) (memRead s .aad 0 s.aadlen.toNat) c := by
  obtain ⟨hk, ha, hp⟩ := aeencChecks_of_ok hi hs h hok
  obtain ⟨t', rk, hh, c, ht', rfl, rfl, rfl, hframe, hlen, hread, -⟩ := (aeencSealsSrcbuf.2 s hi hs).2 hk ha hp
  rw [ht'] at h
  cases h
  exact ⟨_, _, rfl, hlen, by rw [hlen, hread], by rw [hframe]⟩

/-- Settles O56: the envelope carried back has the IV and the ciphertext of AEENC, so the tag computed is the one AEENC
left, and the counter transform undoes itself. -/
theorem aeencThenAedecGivesPlaintextBack : Obligations.AeencThenAedecGivesPlaintextBack := by
  intro s t u hi hs h hok hui hus huk hukey hucfg husrc henv hutag hualen haad
  obtain ⟨-, ha, hp⟩ := aeencChecks_of_ok hi hs h hok
  obtain ⟨iv, c, hc, hlen, hread, htag⟩ := aeenc_ok hi hs h hok
  have hbuf := bufMax_range hi.config
  have hulen : u.srclen.toNat = s.srclen.toNat + 12 := by rw [husrc, hlen]
  have henv' : memRead u .src 0 u.srclen.toNat = ivBytes iv ++ c := by rw [husrc, henv, hread]
  have hdrop : (ivBytes iv ++ c).drop 12 = c := List.drop_left' (ivBytes_length iv)
  have htake : (ivBytes iv ++ c).take 12 = ivBytes iv := List.take_left' (ivBytes_length iv)
  have hutag' : aedecTag u = u.tagin := by
    rw [aedecTag, hukey, hualen, haad, henv', hdrop, hutag, htag]
  have hchecks : AedecChecks u :=
    ⟨huk, by rw [hualen, hucfg]; exact ha, by rw [hucfg]; omega, by omega⟩
  obtain ⟨v, hv, hvok, hvlen, hvread⟩ := aedec_ok_of_tag_eq hui hus hchecks hutag'
  refine ⟨v, hv, hvok, BitVec.eq_of_toNat_eq ?_, ?_⟩
  · rw [hvlen, BitVec.toNat_sub_of_le hchecks.iv, hulen]
    exact Nat.add_sub_cancel _ 12
  · rwa [hulen, Nat.add_sub_cancel, ← hulen, henv', hdrop, htake, ivOfBytes_ivBytes, hukey, hc, ctrXor_ctrXor] at hvread

end Sys2Proof.Machine
end
